-- ==== Sys2Proof/Config.lean ====
section
/-! DEFINITION. The parameters of spec/00_scope.md R5, one name per row with the value this hardware takes, read from here
by every other definition that depends on one (notes/assumptions/16.md), and the two values
spec/93_implementation_defined.md leaves open (U2, U7), which have no body. -/

namespace Sys2Proof.Config

/-- XLEN: width of an operand register. -/
abbrev xlen : Nat := 32
/-- NX: number of operand registers. -/
abbrev nx : Nat := 16
/-- BUF_SIZE: bytes in the frame buffer. -/
abbrev bufSize : Nat := 1024
/-- CK_SEED: checksum seed. -/
abbrev ckSeed : BitVec 8 := 0x42
/-- CRC_POLY_REFLECTED: the CRC-32 polynomial 0x04C11DB7 with its bits reversed (G1). -/
abbrev crcPolyReflected : BitVec 32 := 0xEDB88320
/-- CRC_INIT: initial CRC-32 accumulator (G1). -/
abbrev crcInit : BitVec 32 := 0xFFFFFFFF
/-- CRC_XOROUT: final XOR of the CRC-32 (G1). -/
abbrev crcXorOut : BitVec 32 := 0xFFFFFFFF
/-- AI_SIZE: bytes of an ActuatorInfoRecord. -/
abbrev aiSize : Nat := 264
/-- AI_CRC256_OFF: place of the CRC over the first 252 bytes. -/
abbrev aiCrc256Off : Nat := 252
/-- AI_CRC264_OFF: place of the CRC over the first 260 bytes. -/
abbrev aiCrc264Off : Nat := 260
/-- UC_SIZE: bytes of a UserConfigRecord (D25, G7). -/
abbrev ucSize : Nat := 16
/-- UC_VERSION: the only valid UserConfigRecord version. -/
abbrev ucVersion : BitVec 8 := 1
/-- UC_VERSION_OFF: place of the version byte (D25, G7). -/
abbrev ucVersionOff : Nat := 0
/-- HDR_SIZE: bytes of a MailboxHeader (D19, G3). -/
abbrev hdrSize : Nat := 5
/-- ADDR_W: width of the local-bus address. -/
abbrev addrW : Nat := 13
/-- LEN_W: width of the length-minus-one field (D19, G3). -/
abbrev lenW : Nat := 12
/-- SEQ_W: width of the sequence-number field (D19, G3). -/
abbrev seqW : Nat := 3
/-- MBX_COMMAND_SIZE: bytes of the command mailbox (D20, G4). -/
abbrev mbxCommandSize : Nat := 512
/-- MBX_STATUS_SIZE: bytes of the status mailbox (D20, G4). -/
abbrev mbxStatusSize : Nat := 512
/-- MAX_WRITE: largest write payload, by the source's formula (R171). -/
abbrev maxWrite : Nat := mbxCommandSize - hdrSize - 1
/-- MAX_READ: largest read payload, by the source's formula (R171). -/
abbrev maxRead : Nat := mbxStatusSize - 1
/-- SPI_CMD_SIZE: bytes of an SpiEepromCommand. -/
abbrev spiCmdSize : Nat := 3
/-- SPI_OP_READ (D23, G5). The block serializes any 4-bit code (R181), so the three codes are names for hosts. -/
abbrev spiOpRead : Nat := 0
/-- SPI_OP_WRITE (D23, G5). -/
abbrev spiOpWrite : Nat := 1
/-- SPI_OP_ARBITRARY (D23, G5). -/
abbrev spiOpArbitrary : Nat := 3
/-- EES_READY_BIT: the bit of the EepromStatusRegister that means "ready" (D24, G6). -/
abbrev eesReadyBit : Nat := 7
/-- CYC_CMD_SIZE: bytes of the per-cycle command frame (D26, G8). -/
abbrev cycCmdSize : Nat := 8
/-- CYC_STAT_SIZE: bytes of the per-cycle status frame (D27, G9). -/
abbrev cycStatSize : Nat := 44
/-- MODE_ENABLE (D26, G8). -/
abbrev modeEnable : BitVec 8 := 0x01
/-- MODE_CURRENT (D26, G8). -/
abbrev modeCurrent : BitVec 8 := 0x02
/-- MODE_SAFETY_RESET (D26, G8). -/
abbrev modeSafetyReset : BitVec 8 := 0x10
/-- MAX_CONSEC_DROPS: more consecutive drops than this are a hard failure. -/
abbrev maxConsecDrops : Nat := 10
/-- TS_JUMP_LIMIT: a larger timestamp delta, in microseconds, is a jump. -/
abbrev tsJumpLimit : Nat := 10000000
/-- NCH: number of 8-bit counter channels (D32). -/
abbrev nch : Nat := 16
/-- TOTAL_W: width of a lifetime total (D32). -/
abbrev totalW : Nat := 32
/-- DUR_W: width of the duration accumulator (D30). -/
abbrev durW : Nat := 64
/-- Bytes of the block's window in the host's address space (R27). -/
abbrev windowSize : Nat := 0x2000
/-- Window offset of BUF[0] (R27). -/
abbrev bufWindow : Nat := 0x1000

/-- FREE VALUE (U2, U3; notes/assumptions/1.md): the byte a buffer offset holds after a hardware reset
until something writes it. First argument: which reset of the run (`State.resets`); second: the offset. -/
opaque bufAtReset : Nat → Nat → BitVec 8

/-- FREE VALUE (U7; notes/assumptions/10.md): BLOCK_BASE, the address of the window in the host's address space. -/
opaque blockBase : Nat

/-- The host address of a window offset (U7); every rule of the spec speaks of the offset alone. -/
def hostAddress (off : Nat) : Nat := blockBase + off

end Sys2Proof.Config
end

