-- ==== Sys2Proof/Word.lean ====
section
/-! DEFINITION. The word types of the PR2 EtherCAT codec block (spec/00_scope.md R5, R7). The widths and counts that R5
makes parameters are read from Config. -/

namespace Sys2Proof

/-- One byte of the frame buffer, of the checksum accumulator or of a channel snapshot. -/
abbrev Byte := BitVec 8

/-- A 16-bit half: a packed 16-bit frame field or a temperature maximum. -/
abbrev Half := BitVec 16

/-- A 32-bit word: a command word (R90), a host register access (R72), a 32-bit special register (R30, R32, R34, R36,
R37) or a packed 32-bit frame field. -/
abbrev Word := BitVec 32

/-- The value of an operand register, XLEN bits (R5, R21). -/
abbrev XWord := BitVec Config.xlen

/-- The value of a lifetime total, TOTAL_W bits (R5, R39). -/
abbrev TotalWord := BitVec Config.totalW

/-- The value of the duration accumulator, DUR_W bits (R5, R35). -/
abbrev DWord := BitVec Config.durW

/-- An operand register number, X0 .. X(NX-1) (R5, R21, R92). -/
abbrev Reg := Fin Config.nx

/-- A channel number that names a channel, 0 .. NCH-1 (R5, R39). -/
abbrev Chan := Fin Config.nch

end Sys2Proof
end

