-- ==== Sys2Proof/Syntax.lean ====
section
/-! DEFINITION. The 48 operations of spec/30_encoding.md R94 (spec/opcode_table.json), one constructor a row.
Buffer offsets, lengths and channel numbers are counts (Nat), bounded in WellFormed.lean by the width of their
field; `imm` is a data byte; a register number has exactly the sixteen values of its 4-bit field (R92). -/

namespace Sys2Proof

/-- One operation with its operands (R94). -/
inductive Instr where
  /-- NOP (R270). -/
  | nop
  /-- CLRERR (R271). -/
  | clrerr
  /-- CK.INIT (R125). -/
  | ckInit
  /-- CK.BYTE imm8 (R126). -/
  | ckByte (imm : Byte)
  /-- CK.FOLD off, len (R127). -/
  | ckFold (off len : Nat)
  /-- CK.SUM off, len (R128). -/
  | ckSum (off len : Nat)
  /-- CK.SEAL off, len (R129). -/
  | ckSeal (off len : Nat)
  /-- CK.VFY off, len (R130). -/
  | ckVfy (off len : Nat)
  /-- CRC.INIT (R144). -/
  | crcInit
  /-- CRC.BYTE imm8 (R145). -/
  | crcByte (imm : Byte)
  /-- CRC.FOLD off, len (R146). -/
  | crcFold (off len : Nat)
  /-- CRC.SUM off, len (R147). -/
  | crcSum (off len : Nat)
  /-- CRC.SEAL off, len (R148). -/
  | crcSeal (off len : Nat)
  /-- CRC.VFY off, len (R149). -/
  | crcVfy (off len : Nat)
  /-- AI.GEN off (R152). -/
  | aiGen (off : Nat)
  /-- AI.VFY off (R153). -/
  | aiVfy (off : Nat)
  /-- UC.GEN off (R156). -/
  | ucGen (off : Nat)
  /-- UC.VFY off (R157). -/
  | ucVfy (off : Nat)
  /-- MBX.HDR off (R173). -/
  | mbxHdr (off : Nat)
  /-- MBX.CMD off (R175). -/
  | mbxCmd (off : Nat)
  /-- MBX.CMDZ off (R176). -/
  | mbxCmdz (off : Nat)
  /-- MBX.UNHDR off (R177). -/
  | mbxUnhdr (off : Nat)
  /-- MBX.RSPV off (R178). -/
  | mbxRspv (off : Nat)
  /-- SPI.PACK off (R181). -/
  | spiPack (off : Nat)
  /-- SPI.UNPACK off (R182). -/
  | spiUnpack (off : Nat)
  /-- EES.UNPACK off (R183). -/
  | eesUnpack (off : Nat)
  /-- CYC.PACK off (R202). -/
  | cycPack (off : Nat)
  /-- CYC.UNPACK off (R205). -/
  | cycUnpack (off : Nat)
  /-- LATCH.SET (R214). -/
  | latchSet
  /-- PUT8 r, off (R251). -/
  | put8 (r : Reg) (off : Nat)
  /-- PUT16 r, off (R252). -/
  | put16 (r : Reg) (off : Nat)
  /-- PUT32 r, off (R253). -/
  | put32 (r : Reg) (off : Nat)
  /-- GET8U r, off (R254). -/
  | get8u (r : Reg) (off : Nat)
  /-- GET8S r, off (R255). -/
  | get8s (r : Reg) (off : Nat)
  /-- GET16U r, off (R256). -/
  | get16u (r : Reg) (off : Nat)
  /-- GET16S r, off (R257). -/
  | get16s (r : Reg) (off : Nat)
  /-- GET32 r, off (R258). -/
  | get32 (r : Reg) (off : Nat)
  /-- FILL.Z off, len (R259). -/
  | fillZ (off len : Nat)
  /-- FILL.F off, len (R260). -/
  | fillF (off len : Nat)
  /-- DIFF32 rd, ra, rb (R222). -/
  | diff32 (rd ra rb : Reg)
  /-- DIFF8 rd, ra, rb (R223). -/
  | diff8 (rd ra rb : Reg)
  /-- DUR.ACC ra (R225). -/
  | durAcc (ra : Reg)
  /-- DUR.CLR (R227). -/
  | durClr
  /-- TS.INIT ra (R229). -/
  | tsInit (ra : Reg)
  /-- TS.STEP rd, ra (R231). -/
  | tsStep (rd ra : Reg)
  /-- ACC8 ra, ch (R238). -/
  | acc8 (ra : Reg) (ch : Nat)
  /-- SNAP8 ra, ch (R240). -/
  | snap8 (ra : Reg) (ch : Nat)
  /-- DIAG.RESET (R242). -/
  | diagReset
  deriving DecidableEq, Repr

end Sys2Proof
end

