-- ==== Sys2Proof/WellFormed.lean ====
section
/-! DEFINITION. Which operand values a command word can carry: the field widths of spec/30_encoding.md R91, R92. -/

namespace Sys2Proof

/-- `off` and `len` are 12-bit numbers (R92). -/
def fits12 (n : Nat) : Bool := n < 4096

/-- `ch` is an 8-bit number; that it names a channel is ACC8's and SNAP8's own check, E_CHAN (R92). -/
def fits8 (n : Nat) : Bool := n < 256

/-- An operation is well-formed when each operand fits its field of R91. -/
def Instr.wf : Instr → Bool
  | .nop | .clrerr | .ckInit | .crcInit | .latchSet | .durClr | .diagReset => true
  | .ckByte _ | .crcByte _ => true
  | .ckFold off len | .ckSum off len | .ckSeal off len | .ckVfy off len => fits12 off && fits12 len
  | .crcFold off len | .crcSum off len | .crcSeal off len | .crcVfy off len => fits12 off && fits12 len
  | .fillZ off len | .fillF off len => fits12 off && fits12 len
  | .aiGen off | .aiVfy off | .ucGen off | .ucVfy off => fits12 off
  | .mbxHdr off | .mbxCmd off | .mbxCmdz off | .mbxUnhdr off | .mbxRspv off => fits12 off
  | .spiPack off | .spiUnpack off | .eesUnpack off | .cycPack off | .cycUnpack off => fits12 off
  | .put8 _ off | .put16 _ off | .put32 _ off => fits12 off
  | .get8u _ off | .get8s _ off | .get16u _ off | .get16s _ off | .get32 _ off => fits12 off
  | .diff32 _ _ _ | .diff8 _ _ _ | .durAcc _ | .tsInit _ | .tsStep _ _ => true
  | .acc8 _ ch | .snap8 _ ch => fits8 ch

end Sys2Proof
end

