-- ==== Sys2Proof/Decode.lean ====
section
/-! DEFINITION. Command words to operations and back: the formats of spec/30_encoding.md R91, the opcode table R94,
the decoding order R95, and the encoder written from the same table. -/

namespace Sys2Proof

/-- `w[hi:lo]`, read as an unsigned number (R6). -/
def field (w : Word) (hi lo : Nat) : Nat := w.toNat / 2 ^ lo % 2 ^ (hi - lo + 1)

/-- A register field with its low bit at `lo`: 4 bits, NX = 16 values, all of them valid (R91, R92). -/
def regField (w : Word) (lo : Nat) : Reg := ⟨w.toNat / 2 ^ lo % Config.nx, Nat.mod_lt _ (by decide)⟩

/-- The low byte of a command word: `imm8` of format I (R91). -/
def immField (w : Word) : Byte := BitVec.ofNat 8 w.toNat

/-- Why a command word is no operation (R95): the two refusals of decoding. -/
inductive DecodeError where
  /-- The opcode is unassigned (R97): the command is refused with E_ILLEGAL. Safe: the spec's own outcome. -/
  | illegal
  /-- A must-be-zero bit is 1 (R96): the command is refused with E_RESERVED. Safe: the spec's own outcome. -/
  | reserved
  deriving DecidableEq, Repr

/-- What decoding a command word gives. -/
abbrev Decoded := Except DecodeError Instr

/-- The reserved-bit check of R95: the operation when the must-be-zero bits are zero. -/
def ifZero (bits : Nat) (i : Instr) : Decoded :=
  if bits = 0 then .ok i else .error .reserved

/-- Format N: no operand, bits 23:0 zero (R91). -/
def formatN (w : Word) (i : Instr) : Decoded := ifZero (field w 23 0) i

/-- Format I: `imm8` in 7:0, bits 23:8 zero (R91). -/
def formatI (w : Word) (mk : Byte → Instr) : Decoded := ifZero (field w 23 8) (mk (immField w))

/-- Format R: `off` in 23:12, `len` in 11:0, no must-be-zero bit (R91). -/
def formatR (w : Word) (mk : Nat → Nat → Instr) : Decoded := .ok (mk (field w 23 12) (field w 11 0))

/-- Format O: `off` in 11:0, bits 23:12 zero (R91). -/
def formatO (w : Word) (mk : Nat → Instr) : Decoded := ifZero (field w 23 12) (mk (field w 11 0))

/-- Format M: `r` in 23:20, `off` in 11:0, bits 19:12 zero (R91). -/
def formatM (w : Word) (mk : Reg → Nat → Instr) : Decoded :=
  ifZero (field w 19 12) (mk (regField w 20) (field w 11 0))

/-- Format X with three registers: rd 23:20, ra 19:16, rb 15:12, bits 11:0 zero (R91). -/
def formatX3 (w : Word) (mk : Reg → Reg → Reg → Instr) : Decoded :=
  ifZero (field w 11 0) (mk (regField w 20) (regField w 16) (regField w 12))

/-- Format X with rd and ra; the unused rb and bits 11:0 must be zero (R94). -/
def formatX2 (w : Word) (mk : Reg → Reg → Instr) : Decoded :=
  ifZero (field w 15 0) (mk (regField w 20) (regField w 16))

/-- Format X with ra alone; the unused rd, rb and bits 11:0 must be zero (R94). -/
def formatX1 (w : Word) (mk : Reg → Instr) : Decoded :=
  ifZero (field w 23 20 + field w 15 0) (mk (regField w 16))

/-- Format C: ra in 19:16, `ch` in 7:0, bits 23:20 and 15:8 zero (R91). -/
def formatC (w : Word) (mk : Reg → Nat → Instr) : Decoded :=
  ifZero (field w 23 20 + field w 15 8) (mk (regField w 16) (field w 7 0))

/-- Decoding, in the order of R95: first the opcode `w[31:24]` (R94, R97), then the must-be-zero bits (R96).
Total: every word is one operation or is rejected by name. -/
def decode (w : Word) : Decoded :=
  match field w 31 24 with
  | 0x00 => formatN w .nop
  | 0x01 => formatN w .clrerr
  | 0x10 => formatN w .ckInit
  | 0x11 => formatI w .ckByte
  | 0x12 => formatR w .ckFold
  | 0x13 => formatR w .ckSum
  | 0x14 => formatR w .ckSeal
  | 0x15 => formatR w .ckVfy
  | 0x20 => formatN w .crcInit
  | 0x21 => formatI w .crcByte
  | 0x22 => formatR w .crcFold
  | 0x23 => formatR w .crcSum
  | 0x24 => formatR w .crcSeal
  | 0x25 => formatR w .crcVfy
  | 0x26 => formatO w .aiGen
  | 0x27 => formatO w .aiVfy
  | 0x28 => formatO w .ucGen
  | 0x29 => formatO w .ucVfy
  | 0x30 => formatO w .mbxHdr
  | 0x31 => formatO w .mbxCmd
  | 0x32 => formatO w .mbxCmdz
  | 0x33 => formatO w .mbxUnhdr
  | 0x34 => formatO w .mbxRspv
  | 0x35 => formatO w .spiPack
  | 0x36 => formatO w .spiUnpack
  | 0x37 => formatO w .eesUnpack
  | 0x38 => formatO w .cycPack
  | 0x39 => formatO w .cycUnpack
  | 0x3A => formatN w .latchSet
  | 0x40 => formatM w .put8
  | 0x41 => formatM w .put16
  | 0x42 => formatM w .put32
  | 0x44 => formatM w .get8u
  | 0x45 => formatM w .get8s
  | 0x46 => formatM w .get16u
  | 0x47 => formatM w .get16s
  | 0x48 => formatM w .get32
  | 0x4A => formatR w .fillZ
  | 0x4B => formatR w .fillF
  | 0x50 => formatX3 w .diff32
  | 0x51 => formatX3 w .diff8
  | 0x52 => formatX1 w .durAcc
  | 0x53 => formatN w .durClr
  | 0x54 => formatX1 w .tsInit
  | 0x55 => formatX2 w .tsStep
  | 0x56 => formatC w .acc8
  | 0x57 => formatC w .snap8
  | 0x58 => formatN w .diagReset
  | _ => .error .illegal

/-! The encoder. Each operand is reduced to its field's width, so that no operand spills into another field. -/

/-- A command word from its opcode (bits 31:24) and its low 24 bits (R90). -/
def wordOf (opcode low24 : Nat) : Word := BitVec.ofNat 32 (opcode * 2 ^ 24 + low24)

/-- Format R's low 24 bits (R91). -/
def lowR (off len : Nat) : Nat := off % 4096 * 2 ^ 12 + len % 4096

/-- Format M's low 24 bits (R91). -/
def lowM (r : Reg) (off : Nat) : Nat := r.val * 2 ^ 20 + off % 4096

/-- Format X's low 24 bits (R91). -/
def lowX (rd ra rb : Reg) : Nat := rd.val * 2 ^ 20 + ra.val * 2 ^ 16 + rb.val * 2 ^ 12

/-- Format C's low 24 bits (R91). -/
def lowC (ra : Reg) (ch : Nat) : Nat := ra.val * 2 ^ 16 + ch % 256

/-- The command word of an operation, from the table of R94. -/
def encode : Instr → Word
  | .nop => wordOf 0x00 0
  | .clrerr => wordOf 0x01 0
  | .ckInit => wordOf 0x10 0
  | .ckByte imm => wordOf 0x11 imm.toNat
  | .ckFold off len => wordOf 0x12 (lowR off len)
  | .ckSum off len => wordOf 0x13 (lowR off len)
  | .ckSeal off len => wordOf 0x14 (lowR off len)
  | .ckVfy off len => wordOf 0x15 (lowR off len)
  | .crcInit => wordOf 0x20 0
  | .crcByte imm => wordOf 0x21 imm.toNat
  | .crcFold off len => wordOf 0x22 (lowR off len)
  | .crcSum off len => wordOf 0x23 (lowR off len)
  | .crcSeal off len => wordOf 0x24 (lowR off len)
  | .crcVfy off len => wordOf 0x25 (lowR off len)
  | .aiGen off => wordOf 0x26 (off % 4096)
  | .aiVfy off => wordOf 0x27 (off % 4096)
  | .ucGen off => wordOf 0x28 (off % 4096)
  | .ucVfy off => wordOf 0x29 (off % 4096)
  | .mbxHdr off => wordOf 0x30 (off % 4096)
  | .mbxCmd off => wordOf 0x31 (off % 4096)
  | .mbxCmdz off => wordOf 0x32 (off % 4096)
  | .mbxUnhdr off => wordOf 0x33 (off % 4096)
  | .mbxRspv off => wordOf 0x34 (off % 4096)
  | .spiPack off => wordOf 0x35 (off % 4096)
  | .spiUnpack off => wordOf 0x36 (off % 4096)
  | .eesUnpack off => wordOf 0x37 (off % 4096)
  | .cycPack off => wordOf 0x38 (off % 4096)
  | .cycUnpack off => wordOf 0x39 (off % 4096)
  | .latchSet => wordOf 0x3A 0
  | .put8 r off => wordOf 0x40 (lowM r off)
  | .put16 r off => wordOf 0x41 (lowM r off)
  | .put32 r off => wordOf 0x42 (lowM r off)
  | .get8u r off => wordOf 0x44 (lowM r off)
  | .get8s r off => wordOf 0x45 (lowM r off)
  | .get16u r off => wordOf 0x46 (lowM r off)
  | .get16s r off => wordOf 0x47 (lowM r off)
  | .get32 r off => wordOf 0x48 (lowM r off)
  | .fillZ off len => wordOf 0x4A (lowR off len)
  | .fillF off len => wordOf 0x4B (lowR off len)
  | .diff32 rd ra rb => wordOf 0x50 (lowX rd ra rb)
  | .diff8 rd ra rb => wordOf 0x51 (lowX rd ra rb)
  | .durAcc ra => wordOf 0x52 (lowX 0 ra 0)
  | .durClr => wordOf 0x53 0
  | .tsInit ra => wordOf 0x54 (lowX 0 ra 0)
  | .tsStep rd ra => wordOf 0x55 (lowX rd ra 0)
  | .acc8 ra ch => wordOf 0x56 (lowC ra ch)
  | .snap8 ra ch => wordOf 0x57 (lowC ra ch)
  | .diagReset => wordOf 0x58 0

/-- The instruction the decoder reads from an opcode-table row's bits: a command word is one 32-bit word (R90),
handed to CMD whole, so the row's numbering and the word's are the same. -/
def decodeTableWord (nbits w : Nat) : Option Instr :=
  match decode (BitVec.ofNat 32 (w % 2 ^ nbits)) with
  | .ok i => some i
  | .error _ => none

end Sys2Proof
end

