-- ==== Sys2Proof/Machine/State.lean ====
section
/-! DEFINITION. The state of the block (spec/10_state.md), the host's pending accesses, the reasons a step can stop,
and the state after reset. Plain data throughout. -/

namespace Sys2Proof.Machine

/-- STATUS, field by field (R25). The 32-bit register the host reads is `Status.word` (Flags.lean); its unlisted bits
read as 0, so they are no state. The host cannot write STATUS (R25, R28). -/
structure Status where
  /-- bit 0, OK. -/
  ok : Bool
  /-- bit 1, WRAP. -/
  wrap : Bool
  /-- bit 2, NEG. -/
  neg : Bool
  /-- bit 3, DUP. -/
  dup : Bool
  /-- bit 4, CRC256_OK. -/
  crc256Ok : Bool
  /-- bit 5, CRC264_OK. -/
  crc264Ok : Bool
  /-- bit 8, JUMP (sticky). -/
  jump : Bool
  /-- bit 9, DROPFAIL (sticky). -/
  dropFail : Bool
  /-- bit 10, ERRLATCH (sticky): Faulted when true, Normal when false (R43). -/
  errLatch : Bool
  /-- bit 11, ERRSEEN (sticky). -/
  errSeen : Bool
  /-- bits 23:16, LASTERR. -/
  lastErr : Byte
  deriving DecidableEq, Repr

/-- The refusal codes of R281. -/
inductive ECode where
  | illegal | reserved | range | chan | field
  deriving DecidableEq, Repr

/-- The verdict codes of R281. -/
inductive VCode where
  | len | addr | cksum | crc | version | drops
  deriving DecidableEq, Repr

/-- How a check ends an operation before its effect (R280): a refusal or a verdict. -/
inductive Stop where
  | refuse (e : ECode)
  | verdict (v : VCode)
  deriving DecidableEq, Repr

/-- One event at the block's single host port (R20): an access of the host, or the reset input (R44). Offsets are
window offsets (R27). -/
inductive HostEvent where
  /-- A 32-bit read (R72). -/
  | read32 (off : Nat)
  /-- A 32-bit write (R72); at CMD's offset it executes one operation (R29). -/
  | write32 (off : Nat) (v : Word)
  /-- A single-byte read (R73). -/
  | read8 (off : Nat)
  /-- A single-byte write (R73). -/
  | write8 (off : Nat) (b : Byte)
  /-- A read or write of any other size, which no rule defines (R28, U1). -/
  | otherSize (off : Nat)
  /-- The reset input, asserted and released (R44, R310). -/
  | hardReset
  deriving DecidableEq, Repr

/-- The state: everything spec/10_state.md gives the block, and below it the model's own fields. -/
structure State where
  /-- X0 .. X15 (R21). -/
  x : Vector XWord Config.nx
  /-- STATUS (R25). -/
  status : Status
  /-- ERRCMD (R30). -/
  errCmd : Word
  /-- CKACC (R31). -/
  ckAcc : Byte
  /-- CRCACC, the raw accumulator (R32); CRCOUT is a view of it (R33). -/
  crcAcc : Word
  /-- FRMLEN (R34). -/
  frmLen : Word
  /-- DUR (R35). -/
  dur : DWord
  /-- TS1 (R36). -/
  ts1 : Word
  /-- TS2 (R36). -/
  ts2 : Word
  /-- DROPS (R37). -/
  drops : Word
  /-- CONSEC (R37). -/
  consec : Word
  /-- MAXCONSEC (R37). -/
  maxConsec : Word
  /-- MAXBT (R38). -/
  maxBt : Half
  /-- MAXBRT (R38). -/
  maxBrt : Half
  /-- TOTAL[0] .. TOTAL[15] (R39). -/
  total : Vector TotalWord Config.nch
  /-- SNAP[0] .. SNAP[15] (R39). -/
  snap : Vector Byte Config.nch
  /-- BUF (R40, R70): the bytes written since reset, addresses strictly rising. An offset not listed holds the
  unspecified byte of U2 (`State.byte`, Ops.lean). -/
  buf : List Host.Cell
  /-- MODEL'S OWN: how many hardware resets this run has seen; it selects the free bytes of BUF
  (notes/assumptions/2.md). -/
  resets : Nat
  /-- MODEL'S OWN: the events the host has yet to make, next first (R24, R41; notes/assumptions/4.md). -/
  pending : List HostEvent
  /-- MODEL'S OWN: what the port answered to the host's latest read, if it has made one (notes/assumptions/6.md). -/
  answer : Option Word
  deriving DecidableEq, Repr

/-- Why the machine stops with a fault. No operation of the block faults (spec/93 part 1: a bad frame is a verdict, a
bad command a refusal, and both are next states). -/
inductive Fault where
  /-- Raised by a host access at an offset outside the 0x2000-byte window: an address that is none of the block's
  (R27, R71). Safe: nothing is claimed of what stands there. -/
  | outsideWindow (off : Nat)
  deriving DecidableEq, Repr

/-- Why a step is refused by the model. -/
inductive Refusal where
  /-- Raised by an arm of `exec` without a meaning; no arm is left so. Safe. -/
  | notModelled (mnemonic : String)
  /-- Raised by a host access to a reserved offset of the window (R28, U1: "refuse"). Safe. -/
  | reservedOffset (off : Nat)
  /-- Raised by a register access that is not an aligned 32-bit access, and by a BUF access that is not a single
  byte (R28, U1: "refuse"). Safe. -/
  | accessShape (off : Nat)
  deriving DecidableEq, Repr

/-- What a step or an operation answers. -/
abbrev Result := Host.Outcome State Fault Refusal

/-- STATUS after reset: every field 0 (R45). -/
def Status.reset : Status :=
  { ok := false, wrap := false, neg := false, dup := false, crc256Ok := false, crc264Ok := false,
    jump := false, dropFail := false, errLatch := false, errSeen := false, lastErr := 0 }

/-- The block right after reset (R45, R310). BUF lists nothing: every byte is unspecified. -/
def State.reset : State :=
  { x := Vector.replicate _ 0, status := Status.reset, errCmd := 0, ckAcc := Config.ckSeed,
    crcAcc := Config.crcInit, frmLen := 0, dur := 0, ts1 := 0, ts2 := 0, drops := 0, consec := 0, maxConsec := 0,
    maxBt := 0, maxBrt := 0, total := Vector.replicate _ 0, snap := Vector.replicate _ 0, buf := [], resets := 0,
    pending := [], answer := none }

end Sys2Proof.Machine
end

