-- ==== Sys2Proof/Machine/Ops.lean ====
section
/-! DEFINITION. The named operations over registers and the frame buffer (spec/00_scope.md R8, spec/20_memory.md) and
the three ways an operation ends (spec/60_exceptions.md R280, R284 to R286). The block has no trap entry or return
(R289, R290): recording a refusal is the shared operation `State.refuse`, its acknowledgement is CLRERR. -/

namespace Sys2Proof.Machine

/-! ### Memory: a list of cells, addresses strictly rising -/

/-- The byte stored at an address, if one has been written there. -/
def Memory.lookup : List Host.Cell → Nat → Option Byte
  | [], _ => none
  | (k, b) :: m, a => if k = a then some b else Memory.lookup m a

/-- Store one byte, keeping the addresses rising and one entry an address. -/
def Memory.insert : List Host.Cell → Nat → Byte → List Host.Cell
  | [], a, b => [(a, b)]
  | (k, c) :: m, a, b =>
    if a < k then (a, b) :: (k, c) :: m
    else if a = k then (a, b) :: m
    else (k, c) :: Memory.insert m a b

/-- Store a byte sequence at rising addresses. -/
def Memory.insertAll : List Host.Cell → Nat → List Byte → List Host.Cell
  | m, _, [] => m
  | m, a, b :: bs => Memory.insertAll (Memory.insert m a b) (a + 1) bs

/-- Every address is at least `lo` and below BUF_SIZE, and the addresses rise strictly. -/
def Memory.risingFrom : Nat → List Host.Cell → Bool
  | _, [] => true
  | lo, (k, _) :: m => decide (lo ≤ k) && decide (k < Config.bufSize) && Memory.risingFrom (k + 1) m

/-- The canonical form: addresses strictly rising, all offsets of BUF (R70). An unlisted offset stores no byte at all,
so no entry can equal what an unlisted offset reads as (notes/assumptions/3.md). -/
def Memory.wf (m : List Host.Cell) : Bool := Memory.risingFrom 0 m

/-! ### Reading and writing BUF -/

/-- `BUF[a]`: the byte written there since reset, or else the unspecified byte of U2, U3 (R323: not a fault). -/
def State.byte (s : State) (a : Nat) : Byte := (Memory.lookup s.buf a).getD (Config.bufAtReset s.resets a)

/-- `BUF[a .. a+n)` (R8). -/
def State.bytes (s : State) : Nat → Nat → List Byte
  | _, 0 => []
  | a, n + 1 => s.byte a :: s.bytes (a + 1) n

/-- `BUF[a] <- b` (R8). -/
def State.setByte (s : State) (a : Nat) (b : Byte) : State := { s with buf := Memory.insert s.buf a b }

/-- Store a byte sequence from offset `a` on. -/
def State.store (s : State) (a : Nat) (bs : List Byte) : State := { s with buf := Memory.insertAll s.buf a bs }

/-- The two bytes of a 16-bit field, least significant first (R75). -/
def le16 (v : Half) : List Byte := [v.extractLsb' 0 8, v.extractLsb' 8 8]

/-- The four bytes of a 32-bit field, least significant first (R75, R143). -/
def le32 (v : Word) : List Byte := [v.extractLsb' 0 8, v.extractLsb' 8 8, v.extractLsb' 16 8, v.extractLsb' 24 8]

/-- `MemRead(a, 2)` (R8). -/
def State.read16 (s : State) (a : Nat) : Half := s.byte (a + 1) ++ s.byte a

/-- `MemRead(a, 4)` (R8). -/
def State.read32 (s : State) (a : Nat) : Word := s.byte (a + 3) ++ s.byte (a + 2) ++ s.byte (a + 1) ++ s.byte a

/-- `MemWrite(a, 2, v)` (R8). -/
def State.write16 (s : State) (a : Nat) (v : Half) : State := s.store a (le16 v)

/-- `MemWrite(a, 4, v)` (R8). -/
def State.write32 (s : State) (a : Nat) (v : Word) : State := s.store a (le32 v)

/-! ### Operand registers -/

/-- `X[r]` (R8). No register is hardwired (R21). -/
def State.getX (s : State) (r : Reg) : XWord := s.x[r]

/-- `X[r] <- v` (R8). -/
def State.setX (s : State) (r : Reg) (v : XWord) : State := { s with x := s.x.set r v }

/-- `X[0] <- v0 ; X[1] <- v1 ; …`, as far as the list goes. -/
def State.setXs (s : State) (vs : List XWord) : State :=
  { s with x := Vector.ofFn fun r => vs.getD r.val (s.getX r) }

/-! ### How an operation ends -/

/-- The number a refusal writes to LASTERR (R281). -/
def ECode.code : ECode → Byte
  | .illegal => 1
  | .reserved => 2
  | .range => 3
  | .chan => 4
  | .field => 5

/-- The number a verdict writes to LASTERR (R281). -/
def VCode.code : VCode → Byte
  | .len => 8
  | .addr => 9
  | .cksum => 10
  | .crc => 11
  | .version => 12
  | .drops => 13

/-- Refusal of the command word `w` with code `e` (R284): LASTERR, ERRSEEN and ERRCMD, and nothing else. -/
def State.refuse (s : State) (e : ECode) (w : Word) : State :=
  { s with status := { s.status with lastErr := e.code, errSeen := true }, errCmd := w }

/-- Verdict `v` (R285). -/
def State.verdict (s : State) (v : VCode) : State :=
  { s with status := { s.status with lastErr := v.code, ok := false } }

/-- `ok`: success of an operation that does not write OK (R286). -/
def State.succeed (s : State) : State := { s with status := { s.status with lastErr := 0 } }

/-- `STATUS.OK <- 1 ; ok`: success of an operation that writes OK (R26, R286). -/
def State.pass (s : State) : State := { s with status := { s.status with lastErr := 0, ok := true } }

/-- End an operation at a failed check: a refusal records the command word `w`, a verdict does not (R284, R285). -/
def State.stop (s : State) (w : Word) : Stop → State
  | .refuse e => s.refuse e w
  | .verdict v => s.verdict v

/-- An operation whose checks come first and change nothing (R74, R282): the first failing one ends it, else it acts.
The command word a refusal records is the one the operation is encoded in (R30, R95; notes/assumptions/8.md). `act` takes
no argument: it is computed only once the checks have passed. -/
def attempt (i : Instr) (s : State) (check : Option Stop) (act : Unit → State) : Result :=
  .next (match check with
    | some st => s.stop (encode i) st
    | none => act ())

/-- `range(a, n)` (R8, R74): as natural numbers, without wrap-around. -/
def rangeCheck (a n : Nat) : Option Stop :=
  if a + n ≤ Config.bufSize then none else some (.refuse .range)

/-- `if bad: raise Refuse(E_FIELD)` (R281). -/
def fieldCheck (bad : Bool) : Option Stop := if bad then some (.refuse .field) else none

/-- `if bad: verdict v ; stop` (R285). -/
def verdictCheck (bad : Bool) (v : VCode) : Option Stop := if bad then some (.verdict v) else none

/-- A verify operation's last line: `if bad: verdict v else: STATUS.OK <- 1 ; ok`. -/
def State.judge (s : State) (bad : Bool) (v : VCode) : State := if bad then s.verdict v else s.pass

end Sys2Proof.Machine
end

