-- ==== Sys2Proof/Machine/Flags.lean ====
section
/-! DEFINITION. Every flag computation of the spec, and the 32-bit views of STATUS and of the narrow registers. -/

namespace Sys2Proof.Machine

/-- WRAP of a delta: the subtraction `new - old` borrowed (R221). -/
def borrowed {n : Nat} (new old : BitVec n) : Bool := new.ult old

/-- NEG of a delta: it is negative as a signed number (R221). -/
def isNegative {n : Nat} (d : BitVec n) : Bool := d.msb

/-- DUP: the timestamp equals either of the last two seen (R232). -/
def isDuplicate (t ts1 ts2 : Word) : Bool := t == ts1 || t == ts2

/-- The drop failure: more than MAX_CONSEC_DROPS consecutive drops (R234). -/
def dropsExceeded (consec : Word) : Bool := Config.maxConsecDrops < consec.toNat

/-- JUMP: the delta, read as signed, is large or reversed (R235). -/
def isJump (d : Word) : Bool := decide ((Config.tsJumpLimit : Int) < d.toInt) || decide (d.toInt < 0)

/-- The larger of two unsigned values (`max_u`). -/
def maxU {n : Nat} (a b : BitVec n) : BitVec n := if a.ult b then b else a

/-- STATUS as the host reads it (R25): unlisted bits are 0. -/
def Status.word (st : Status) : Word :=
  0#8 ++ st.lastErr ++ 0#4 ++ BitVec.ofBool st.errSeen ++ BitVec.ofBool st.errLatch ++ BitVec.ofBool st.dropFail ++
    BitVec.ofBool st.jump ++ 0#2 ++ BitVec.ofBool st.crc264Ok ++ BitVec.ofBool st.crc256Ok ++ BitVec.ofBool st.dup ++
    BitVec.ofBool st.neg ++ BitVec.ofBool st.wrap ++ BitVec.ofBool st.ok

end Sys2Proof.Machine
end

