-- ==== Sys2Proof/Machine/Operands.lean ====
section
/-! DEFINITION. The operand forms of the operations: sub-fields of X registers, extensions (R7), channel numbers and
the range tests on X operands. -/

namespace Sys2Proof.Machine

/-- `v[7:0]`: bits 31:8 are ignored. -/
def low8 (v : XWord) : Byte := v.extractLsb' 0 8

/-- `v[15:0]`. -/
def low16 (v : XWord) : Half := v.extractLsb' 0 16

/-- `v[31:0]`. -/
def low32 (v : XWord) : Word := v.extractLsb' 0 32

/-- `zext` to a register (R7). -/
def zext {n : Nat} (v : BitVec n) : XWord := v.setWidth Config.xlen

/-- `sext` to a register (R7). -/
def sext {n : Nat} (v : BitVec n) : XWord := v.signExtend Config.xlen

/-- A register as the 32-bit host port delivers it: a narrower one with its upper bits 0 (R27, R72). -/
def onPort {n : Nat} (v : BitVec n) : Word := v.setWidth 32

/-- One bit as a register value (`zext_1`). -/
def zextBit (b : Bool) : XWord := zext (BitVec.ofBool b)

/-- A channel number that names a channel: `ch < NCH` (R92, R238). -/
def channel? (ch : Nat) : Option Chan := if h : ch < Config.nch then some ⟨ch, h⟩ else none

/-- The largest payload of a direction: X3 = 1 is a write, 0 a read (R171, R173). -/
def maxPayload (write : Bool) : Nat := if write then Config.maxWrite else Config.maxRead

/-- A payload length is 0 or above the direction's maximum (R171, R173). -/
def badLength (len : XWord) (write : Bool) : Bool := len == 0 || decide (maxPayload write < len.toNat)

/-- An address that does not fit ADDR_W bits (R173). -/
def badAddress (a : XWord) : Bool := decide (2 ^ Config.addrW ≤ a.toNat)

/-- A signed value outside -32768 .. 32767 (R202). -/
def outsideS16 (v : XWord) : Bool := decide (v.toInt < -32768) || decide (32767 < v.toInt)

end Sys2Proof.Machine
end

