-- ==== Sys2Proof/Machine/Checksum.lean ====
section
/-! DEFINITION. The checksum unit CKU (spec/40_checksum.md). -/

namespace Sys2Proof.Machine

/-- `rotr8(a)`: rotation right by one position within 8 bits (R120; spec/90 C1). -/
def rotr8 (a : Byte) : Byte := (a >>> 1) ||| (a <<< 7)

/-- `cks_step(a, b)`: rotate, then XOR (R121). -/
def cksStep (a b : Byte) : Byte := rotr8 a ^^^ b

/-- `cks_from(a0, bytes)` (R122). -/
def cksFrom (a0 : Byte) (bs : List Byte) : Byte := bs.foldl cksStep a0

/-- `cks(bytes)`: the fold from the seed (R122). -/
def cks (bs : List Byte) : Byte := cksFrom Config.ckSeed bs

/-- The trailing byte that makes a payload a valid ChecksumFrame (R123). -/
def trailer (bs : List Byte) : Byte := rotr8 (cks bs)

/-- `BUF[off+n] <- rotr8(cks(BUF[off .. off+n)))`: seal a region of n bytes (R123). -/
def State.sealCk (s : State) (off n : Nat) : State := s.setByte (off + n) (trailer (s.bytes off n))

/-- CK.INIT (R125). -/
def execCkInit (s : State) : Result := .next { s with ckAcc := Config.ckSeed }.succeed

/-- CK.BYTE imm8 (R126). -/
def execCkByte (imm : Byte) (s : State) : Result := .next { s with ckAcc := cksStep s.ckAcc imm }.succeed

/-- CK.FOLD off, len (R127): continues from CKACC. -/
def execCkFold (off len : Nat) (s : State) : Result :=
  attempt (.ckFold off len) s (rangeCheck off len)
    fun _ => { s with ckAcc := cksFrom s.ckAcc (s.bytes off len) }.succeed

/-- CK.SUM off, len (R128): from the seed. -/
def execCkSum (off len : Nat) (s : State) : Result :=
  attempt (.ckSum off len) s (rangeCheck off len) fun _ => { s with ckAcc := cks (s.bytes off len) }.succeed

/-- CK.SEAL off, len (R129): the trailing byte goes to BUF[off+len] and to CKACC. -/
def execCkSeal (off len : Nat) (s : State) : Result :=
  attempt (.ckSeal off len) s (rangeCheck off (len + 1))
    fun _ => { s.sealCk off len with ckAcc := trailer (s.bytes off len) }.succeed

/-- The judgement shared by CK.VFY, MBX.RSPV and CYC.UNPACK's check: CKACC takes the fold of the range. -/
def State.foldRange (s : State) (off n : Nat) : State := { s with ckAcc := cks (s.bytes off n) }

/-- CK.VFY off, len (R130). -/
def execCkVfy (off len : Nat) (s : State) : Result :=
  attempt (.ckVfy off len) s (rangeCheck off len)
    fun _ => (s.foldRange off len).judge (cks (s.bytes off len) != 0) .cksum

end Sys2Proof.Machine
end

