-- ==== Sys2Proof/Machine/Counters.lean ====
section
/-! DEFINITION. The counter arithmetic unit CAU (spec/44_counters.md). -/

namespace Sys2Proof.Machine

/-- WRAP and NEG of the delta `new - old` (R221). -/
def State.setDeltaFlags {n : Nat} (s : State) (new old : BitVec n) : State :=
  { s with status := { s.status with wrap := borrowed new old, neg := isNegative (new - old) } }

/-- DIFF32 rd, ra, rb (R222): both sources are read before X[rd] is written. -/
def execDiff32 (rd ra rb : Reg) (s : State) : Result :=
  .next ((s.setDeltaFlags (low32 (s.getX ra)) (low32 (s.getX rb))).setX rd
    (zext (low32 (s.getX ra) - low32 (s.getX rb)))).succeed

/-- DIFF8 rd, ra, rb (R223). -/
def execDiff8 (rd ra rb : Reg) (s : State) : Result :=
  .next ((s.setDeltaFlags (low8 (s.getX ra)) (low8 (s.getX rb))).setX rd
    (zext (low8 (s.getX ra) - low8 (s.getX rb)))).succeed

/-- DUR.ACC ra (R225): the delta is added as a signed number, modulo 2^DUR_W (R226). -/
def execDurAcc (ra : Reg) (s : State) : Result :=
  .next { s with dur := s.dur + (low32 (s.getX ra)).signExtend Config.durW }.succeed

/-- DUR.CLR (R227). -/
def execDurClr (s : State) : Result := .next { s with dur := 0 }.succeed

/-- TS.INIT ra (R229). -/
def execTsInit (ra : Reg) (s : State) : Result :=
  .next { s with ts1 := low32 (s.getX ra), ts2 := low32 (s.getX ra), consec := 0 }.succeed

/-- Counting a drop, or ending the streak (R231, R233). -/
def State.countDrop (s : State) (dup : Bool) : State :=
  if dup then
    { s with drops := s.drops + 1, consec := s.consec + 1, maxConsec := maxU s.maxConsec (s.consec + 1) }
  else { s with consec := 0 }

/-- The timestamps shift on every step, duplicate or not (R232). -/
def State.shiftTimestamps (s : State) (t : Word) : State := { s with ts2 := s.ts1, ts1 := t }

/-- The end of TS.STEP: the drop failure, or else the jump test (R231, R234, R235). -/
def State.judgeTimestamp (s : State) (d : Word) : State :=
  if dropsExceeded s.consec then
    { s with status := { s.status with dropFail := true, errLatch := true } }.verdict .drops
  else { s with status := { s.status with jump := s.status.jump || isJump d } }.pass

/-- TS.STEP rd, ra (R231). -/
def execTsStep (rd ra : Reg) (s : State) : Result :=
  let t := low32 (s.getX ra)
  let d := t - s.ts1
  let dup := isDuplicate t s.ts1 s.ts2
  let u := (((s.countDrop dup).shiftTimestamps t).setX rd (zext d)).setDeltaFlags t s.ts1
  .next ({ u with status := { u.status with dup := dup } }.judgeTimestamp d)

/-- ACC8 ra, ch (R238): E_CHAN, then total and snapshot together. -/
def execAcc8 (ra : Reg) (ch : Nat) (s : State) : Result :=
  .next (match channel? ch with
    | none => s.refuse .chan (encode (.acc8 ra ch))
    | some c =>
      let n := low8 (s.getX ra)
      { s with
        status := { s.status with wrap := borrowed n s.snap[c] }
        total := s.total.set c (s.total[c] + (n - s.snap[c]).setWidth Config.totalW)
        snap := s.snap.set c n }.succeed)

/-- SNAP8 ra, ch (R240): the snapshot alone. -/
def execSnap8 (ra : Reg) (ch : Nat) (s : State) : Result :=
  .next (match channel? ch with
    | none => s.refuse .chan (encode (.snap8 ra ch))
    | some c => { s with snap := s.snap.set c (low8 (s.getX ra)) }.succeed)

/-- DIAG.RESET (R242): SNAP, CONSEC, TS1, TS2, DUR and every flag but LASTERR stay. -/
def execDiagReset (s : State) : Result :=
  .next { s with
    total := Vector.replicate _ 0, drops := 0, maxConsec := 0, maxBt := 0, maxBrt := 0 }.succeed

end Sys2Proof.Machine
end

