-- ==== Sys2Proof/Machine/Crc.lean ====
section
/-! DEFINITION. The CRC unit CRCU (spec/41_crc32.md). -/

namespace Sys2Proof.Machine

/-- One shift of the reflected CRC register (R140). -/
def crcShift (a : Word) : Word :=
  if a.getLsbD 0 then (a >>> 1) ^^^ Config.crcPolyReflected else a >>> 1

/-- `repeat n times` of R140. -/
def crcShifts : Nat → Word → Word
  | 0, a => a
  | n + 1, a => crcShifts n (crcShift a)

/-- `crc_step(a, b)` (R140): the byte enters at bits 7:0. -/
def crcStep (a : Word) (b : Byte) : Word := crcShifts 8 (a ^^^ b.setWidth 32)

/-- `crc_fold(a, bytes)` (R141). -/
def crcFold (a : Word) (bs : List Byte) : Word := bs.foldl crcStep a

/-- The raw CRC of a byte sequence, from CRC_INIT: what CRCACC holds. -/
def crcRaw (bs : List Byte) : Word := crcFold Config.crcInit bs

/-- The finished CRC of a raw accumulator: CRCOUT's view (R33). -/
def crcFinish (a : Word) : Word := a ^^^ Config.crcXorOut

/-- `crc32(bytes)` (R142). -/
def crc32 (bs : List Byte) : Word := crcFinish (crcRaw bs)

/-- Store the CRC of BUF[off .. off+n) in the four bytes after it and leave the raw CRC in CRCACC (R143). -/
def State.sealCrc (s : State) (off n : Nat) : State :=
  { s.write32 (off + n) (crc32 (s.bytes off n)) with crcAcc := crcRaw (s.bytes off n) }

/-- The stored CRC after BUF[off .. off+n) is the CRC of that range (R143). -/
def State.crcMatches (s : State) (off n : Nat) : Bool := crc32 (s.bytes off n) == s.read32 (off + n)

/-- CRC.INIT (R144). -/
def execCrcInit (s : State) : Result := .next { s with crcAcc := Config.crcInit }.succeed

/-- CRC.BYTE imm8 (R145). -/
def execCrcByte (imm : Byte) (s : State) : Result := .next { s with crcAcc := crcStep s.crcAcc imm }.succeed

/-- CRC.FOLD off, len (R146): continues from CRCACC. -/
def execCrcFold (off len : Nat) (s : State) : Result :=
  attempt (.crcFold off len) s (rangeCheck off len)
    fun _ => { s with crcAcc := crcFold s.crcAcc (s.bytes off len) }.succeed

/-- CRC.SUM off, len (R147): from CRC_INIT. -/
def execCrcSum (off len : Nat) (s : State) : Result :=
  attempt (.crcSum off len) s (rangeCheck off len) fun _ => { s with crcAcc := crcRaw (s.bytes off len) }.succeed

/-- CRC.SEAL off, len (R148). -/
def execCrcSeal (off len : Nat) (s : State) : Result :=
  attempt (.crcSeal off len) s (rangeCheck off (len + 4)) fun _ => (s.sealCrc off len).succeed

/-- CRC.VFY off, len (R149). -/
def execCrcVfy (off len : Nat) (s : State) : Result :=
  attempt (.crcVfy off len) s (rangeCheck off (len + 4))
    fun _ => { s with crcAcc := crcRaw (s.bytes off len) }.judge (!s.crcMatches off len) .crc

/-- AI.GEN off (R152): the CRC over 252 bytes is stored before the CRC over 260 bytes, which covers it. -/
def execAiGen (off : Nat) (s : State) : Result :=
  attempt (.aiGen off) s (rangeCheck off Config.aiSize)
    fun _ => ((s.sealCrc off Config.aiCrc256Off).sealCrc off Config.aiCrc264Off).succeed

/-- AI.VFY off (R153): both comparisons are always made, and either suffices (R151). -/
def execAiVfy (off : Nat) (s : State) : Result :=
  attempt (.aiVfy off) s (rangeCheck off Config.aiSize)
    fun _ =>
      { s with
        crcAcc := crcRaw (s.bytes off Config.aiCrc264Off)
        status := { s.status with
          crc256Ok := s.crcMatches off Config.aiCrc256Off
          crc264Ok := s.crcMatches off Config.aiCrc264Off } }.judge
        (!(s.crcMatches off Config.aiCrc256Off || s.crcMatches off Config.aiCrc264Off)) .crc

/-- UC.GEN off (R156): the version byte is neither written nor checked. -/
def execUcGen (off : Nat) (s : State) : Result :=
  attempt (.ucGen off) s (rangeCheck off Config.ucSize) fun _ => (s.sealCrc off (Config.ucSize - 4)).succeed

/-- UC.VFY off (R157): the CRC first, then the version. -/
def execUcVfy (off : Nat) (s : State) : Result :=
  attempt (.ucVfy off) s (rangeCheck off Config.ucSize)
    fun _ =>
      let t := { s with crcAcc := crcRaw (s.bytes off (Config.ucSize - 4)) }
      if s.crcMatches off (Config.ucSize - 4) then
        t.judge (s.byte (off + Config.ucVersionOff) != Config.ucVersion) .version
      else t.verdict .crc

end Sys2Proof.Machine
end

