-- ==== Sys2Proof/Machine/Cycle.lean ====
section
/-! DEFINITION. The per-cycle command and status frames and the error latch (spec/43_frames_cycle.md). -/

namespace Sys2Proof.Machine

/-- X3 bit 0: the external halt request (R201). -/
def State.haltRequest (s : State) : Bool := (s.getX 3).getLsbD 0

/-- X3 bit 1: the reset request (R201). -/
def State.resetRequest (s : State) : Bool := (s.getX 3).getLsbD 1

/-- The reset command clears ERRLATCH, DROPFAIL and JUMP, before the mode is computed (R201). -/
def State.applyReset (s : State) : State :=
  if s.resetRequest then { s with status := { s.status with errLatch := false, dropFail := false, jump := false } }
  else s

/-- The mode byte, with the latch as it now is (R201). -/
def State.modeByte (s : State) : Byte :=
  (if s.getX 0 == 1 && !s.haltRequest && !s.status.errLatch then Config.modeEnable ||| Config.modeCurrent else 0) |||
    (if s.resetRequest then Config.modeSafetyReset else 0)

/-- The E_FIELD test of CYC.PACK (R202). -/
def badCycleOperands (s : State) : Bool :=
  decide (1 < (s.getX 0).toNat) || decide (3 < (s.getX 3).toNat) || decide (0xFF < (s.getX 2).toNat) ||
    outsideS16 (s.getX 1)

/-- The first seven bytes of the command frame (R200, R202). -/
def State.cycleBody (s : State) : List Byte :=
  [s.modeByte, low8 (s.getX 2)] ++ le16 0 ++ le16 (low16 (s.getX 1)) ++ [0]

/-- CYC.PACK off (R202). -/
def execCycPack (off : Nat) (s : State) : Result :=
  attempt (.cycPack off) s ((rangeCheck off Config.cycCmdSize).or (fieldCheck (badCycleOperands s)))
    fun _ => { (s.applyReset.store off s.applyReset.cycleBody).sealCk off (Config.cycCmdSize - 1) with
      frmLen := BitVec.ofNat 32 Config.cycCmdSize }.succeed

/-- The sixteen values CYC.UNPACK delivers, X0 first (R203, R205). -/
def State.statusFields (s : State) (off : Nat) : List XWord :=
  [zext (s.read32 (off + 8)),
   zext (s.read32 (off + 12)),
   zext (s.byte off),
   sext (s.read16 (off + 6)),
   sext (s.read16 (off + 4)),
   zext (s.read16 (off + 20)),
   zext (s.byte (off + 23)),
   zext (s.read32 (off + 24)),
   zext (s.read32 (off + 28)),
   zext (s.read16 (off + 32)),
   zext (s.read16 (off + 34)),
   zext (s.read16 (off + 36)),
   sext (s.read16 (off + 38)),
   zext (s.read16 (off + 40)),
   zext (s.byte (off + 1)),
   zext (s.read32 (off + 16))]

/-- CYC.UNPACK off (R205): CKACC takes the fold in both cases; X and the maxima only when it is 0 (R208). -/
def execCycUnpack (off : Nat) (s : State) : Result :=
  attempt (.cycUnpack off) s (rangeCheck off Config.cycStatSize)
    fun _ =>
      if cks (s.bytes off Config.cycStatSize) != 0 then (s.foldRange off Config.cycStatSize).verdict .cksum
      else
        { (s.foldRange off Config.cycStatSize).setXs (s.statusFields off) with
          maxBt := maxU s.maxBt (s.read16 (off + 32))
          maxBrt := maxU s.maxBrt (s.read16 (off + 34)) }.pass

/-- LATCH.SET (R214). -/
def execLatchSet (s : State) : Result :=
  .next { s with status := { s.status with errLatch := true } }.succeed

end Sys2Proof.Machine
end

