-- ==== Sys2Proof/Machine/FieldAccess.lean ====
section
/-! DEFINITION. Field access and fill operations on BUF (spec/45_field_access.md). -/

namespace Sys2Proof.Machine

/-- PUT8 r, off (R251). -/
def execPut8 (r : Reg) (off : Nat) (s : State) : Result :=
  attempt (.put8 r off) s (rangeCheck off 1) fun _ => (s.setByte off (low8 (s.getX r))).succeed

/-- PUT16 r, off (R252). -/
def execPut16 (r : Reg) (off : Nat) (s : State) : Result :=
  attempt (.put16 r off) s (rangeCheck off 2) fun _ => (s.write16 off (low16 (s.getX r))).succeed

/-- PUT32 r, off (R253). -/
def execPut32 (r : Reg) (off : Nat) (s : State) : Result :=
  attempt (.put32 r off) s (rangeCheck off 4) fun _ => (s.write32 off (low32 (s.getX r))).succeed

/-- GET8U r, off (R254). -/
def execGet8u (r : Reg) (off : Nat) (s : State) : Result :=
  attempt (.get8u r off) s (rangeCheck off 1) fun _ => (s.setX r (zext (s.byte off))).succeed

/-- GET8S r, off (R255). -/
def execGet8s (r : Reg) (off : Nat) (s : State) : Result :=
  attempt (.get8s r off) s (rangeCheck off 1) fun _ => (s.setX r (sext (s.byte off))).succeed

/-- GET16U r, off (R256). -/
def execGet16u (r : Reg) (off : Nat) (s : State) : Result :=
  attempt (.get16u r off) s (rangeCheck off 2) fun _ => (s.setX r (zext (s.read16 off))).succeed

/-- GET16S r, off (R257). -/
def execGet16s (r : Reg) (off : Nat) (s : State) : Result :=
  attempt (.get16s r off) s (rangeCheck off 2) fun _ => (s.setX r (sext (s.read16 off))).succeed

/-- GET32 r, off (R258). -/
def execGet32 (r : Reg) (off : Nat) (s : State) : Result :=
  attempt (.get32 r off) s (rangeCheck off 4) fun _ => (s.setX r (zext (s.read32 off))).succeed

/-- FILL.Z off, len (R259). -/
def execFillZ (off len : Nat) (s : State) : Result :=
  attempt (.fillZ off len) s (rangeCheck off len) fun _ => (s.store off (List.replicate len 0x00)).succeed

/-- FILL.F off, len (R260). -/
def execFillF (off len : Nat) (s : State) : Result :=
  attempt (.fillF off len) s (rangeCheck off len) fun _ => (s.store off (List.replicate len 0xFF)).succeed

end Sys2Proof.Machine
end

