-- ==== Sys2Proof/Machine/Mailbox.lean ====
section
/-! DEFINITION. The mailbox and SPI-EEPROM register frames of FSD (spec/42_frames_mailbox.md). -/

namespace Sys2Proof.Machine

/-- X3 says the direction: 1 = write, 0 = read (R173). -/
def State.isWrite (s : State) : Bool := s.getX 3 == 1

/-- The payload length operand L = X1 (R173). -/
def State.payload (s : State) : Nat := (s.getX 1).toNat

/-- The checks of MBX.HDR, in order: E_RANGE (5 bytes), E_FIELD, V_LEN, V_ADDR (R173, R282). -/
def headerCheck (off : Nat) (s : State) : Option Stop :=
  (rangeCheck off Config.hdrSize).or <|
  (fieldCheck (decide (1 < (s.getX 3).toNat))).or <|
  (verdictCheck (badLength (s.getX 1) s.isWrite) .len).or <|
  verdictCheck (badAddress (s.getX 0)) .addr

/-- Bytes of the frame a MailboxCommand makes: header, L data bytes and a checksum byte for a write, the header alone
for a read (R174). -/
def State.frameSize (s : State) : Nat :=
  if s.isWrite then Config.hdrSize + s.payload + 1 else Config.hdrSize

/-- The checks of MBX.CMD and MBX.CMDZ: those of MBX.HDR, then E_RANGE of the whole frame (R175, R282). -/
def commandCheck (off : Nat) (s : State) : Option Stop :=
  (headerCheck off s).or (rangeCheck off s.frameSize)

/-- Bytes 2..3 of the header: {wnr, seq[2:0], lenm1[11:0]} (R170, R173). -/
def headerHalf (dir seq len : XWord) : Half :=
  dir.extractLsb' 0 1 ++ seq.extractLsb' 0 Config.seqW ++ (len - 1).extractLsb' 0 Config.lenW

/-- Write the five header bytes from X0..X3 (R173). -/
def State.putHeader (s : State) (off : Nat) : State :=
  ((s.write16 off (low16 (s.getX 0))).write16 (off + 2)
    (headerHalf (s.getX 3) (s.getX 2) (s.getX 1))).sealCk off (Config.hdrSize - 1)

/-- MBX.HDR off (R173). -/
def execMbxHdr (off : Nat) (s : State) : Result :=
  attempt (.mbxHdr off) s (headerCheck off s)
    fun _ => { s.putHeader off with frmLen := BitVec.ofNat 32 Config.hdrSize }.pass

/-- Write the data checksum of a write command; a read command has none (R174, R175). -/
def State.sealData (s : State) (off : Nat) : State :=
  if s.isWrite then s.sealCk (off + Config.hdrSize) s.payload else s

/-- MBX.CMD off (R175): the host has placed the data bytes. -/
def execMbxCmd (off : Nat) (s : State) : Result :=
  attempt (.mbxCmd off) s (commandCheck off s)
    fun _ => { (s.putHeader off).sealData off with frmLen := BitVec.ofNat 32 s.frameSize }.pass

/-- Zero the data region of a write command (R176). -/
def State.zeroData (s : State) (off : Nat) : State :=
  if s.isWrite then s.store (off + Config.hdrSize) (List.replicate s.payload 0) else s

/-- MBX.CMDZ off (R176): the data region is zero-filled. -/
def execMbxCmdz (off : Nat) (s : State) : Result :=
  attempt (.mbxCmdz off) s (commandCheck off s)
    fun _ => { ((s.putHeader off).zeroData off).sealData off with frmLen := BitVec.ofNat 32 s.frameSize }.pass

/-- The length a header half carries: lenm1 + 1, 1 .. 4096 (R177). -/
def halfLength (c : Half) : XWord := zext (c.extractLsb' 0 Config.lenW) + 1

/-- X0..X3 take the fields of a header: address half `a`, command half `c` (R177). -/
def State.deliverHeader (s : State) (a c : Half) : State :=
  (((s.setX 0 (zext a)).setX 1 (halfLength c)).setX 2 (zext (c.extractLsb' Config.lenW Config.seqW))).setX 3
    (zextBit (c.getLsbD 15))

/-- The checks of MBX.UNHDR that come after X0..X3 are written: V_ADDR, then V_LEN (R177). -/
def State.judgeHeader (s : State) (a c : Half) : State :=
  if badAddress (zext a) then s.verdict .addr
  else s.judge (decide (maxPayload (c.getLsbD 15) < (halfLength c).toNat)) .len

/-- MBX.UNHDR off (R177): E_RANGE, V_CKSUM with X unchanged; then the fields are delivered and judged. -/
def execMbxUnhdr (off : Nat) (s : State) : Result :=
  attempt (.mbxUnhdr off) s
    ((rangeCheck off Config.hdrSize).or (verdictCheck (cks (s.bytes off Config.hdrSize) != 0) .cksum))
    fun _ => (s.deliverHeader (s.read16 off) (s.read16 (off + 2))).judgeHeader (s.read16 off) (s.read16 (off + 2))

/-- MBX.RSPV off (R178): V_LEN before E_RANGE, then the fold of payload and checksum byte. -/
def execMbxRspv (off : Nat) (s : State) : Result :=
  attempt (.mbxRspv off) s
    ((verdictCheck (badLength (s.getX 1) false) .len).or (rangeCheck off (s.payload + 1)))
    fun _ => (s.foldRange off (s.payload + 1)).judge (cks (s.bytes off (s.payload + 1)) != 0) .cksum

/-- SPI.PACK off (R181): busy and the reserved bits are written 0. -/
def execSpiPack (off : Nat) (s : State) : Result :=
  attempt (.spiPack off) s
    ((rangeCheck off Config.spiCmdSize).or
      (fieldCheck (decide (15 < (s.getX 0).toNat) || decide (0xFFFF < (s.getX 1).toNat))))
    fun _ => { (s.write16 off (low16 (s.getX 1))).setByte (off + 2) (0#4 ++ (s.getX 0).extractLsb' 0 4) with
      frmLen := BitVec.ofNat 32 Config.spiCmdSize }.succeed

/-- SPI.UNPACK off (R182): bits 4, 6 and 7 of byte 2 are ignored (R180). -/
def execSpiUnpack (off : Nat) (s : State) : Result :=
  attempt (.spiUnpack off) s (rangeCheck off Config.spiCmdSize)
    fun _ => (((s.setX 1 (zext (s.read16 off))).setX 0 (zext ((s.byte (off + 2)).extractLsb' 0 4))).setX 2
      (zextBit ((s.byte (off + 2)).getLsbD 5))).succeed

/-- EES.UNPACK off (R183). -/
def execEesUnpack (off : Nat) (s : State) : Result :=
  attempt (.eesUnpack off) s (rangeCheck off 1)
    fun _ => (s.setX 0 (zextBit ((s.byte off).getLsbD Config.eesReadyBit))).succeed

end Sys2Proof.Machine
end

