-- ==== Sys2Proof/Machine/System.lean ====
section
/-! DEFINITION. The system operations (spec/46_system.md). -/

namespace Sys2Proof.Machine

/-- NOP (R270): LASTERR becomes 0 and nothing else changes. -/
def execNop (s : State) : Result := .next s.succeed

/-- CLRERR (R271): ERRSEEN alone is cleared; ERRCMD and the device-safety flags stay (R290). -/
def execClrerr (s : State) : Result := .next { s with status := { s.status with errSeen := false } }.succeed

end Sys2Proof.Machine
end

