-- ==== Sys2Proof/Machine/Dispatch.lean ====
section
/-! DEFINITION. One arm per operation: the call of its meaning. -/

namespace Sys2Proof.Machine

def exec (i : Instr) (s : State) : Host.Outcome State Fault Refusal :=
  match i with
  | .nop => Sys2Proof.Machine.execNop s
  | .clrerr => Sys2Proof.Machine.execClrerr s
  | .ckInit => Sys2Proof.Machine.execCkInit s
  | .ckByte imm => Sys2Proof.Machine.execCkByte imm s
  | .ckFold off len => Sys2Proof.Machine.execCkFold off len s
  | .ckSum off len => Sys2Proof.Machine.execCkSum off len s
  | .ckSeal off len => Sys2Proof.Machine.execCkSeal off len s
  | .ckVfy off len => Sys2Proof.Machine.execCkVfy off len s
  | .crcInit => Sys2Proof.Machine.execCrcInit s
  | .crcByte imm => Sys2Proof.Machine.execCrcByte imm s
  | .crcFold off len => Sys2Proof.Machine.execCrcFold off len s
  | .crcSum off len => Sys2Proof.Machine.execCrcSum off len s
  | .crcSeal off len => Sys2Proof.Machine.execCrcSeal off len s
  | .crcVfy off len => Sys2Proof.Machine.execCrcVfy off len s
  | .aiGen off => Sys2Proof.Machine.execAiGen off s
  | .aiVfy off => Sys2Proof.Machine.execAiVfy off s
  | .ucGen off => Sys2Proof.Machine.execUcGen off s
  | .ucVfy off => Sys2Proof.Machine.execUcVfy off s
  | .mbxHdr off => Sys2Proof.Machine.execMbxHdr off s
  | .mbxCmd off => Sys2Proof.Machine.execMbxCmd off s
  | .mbxCmdz off => Sys2Proof.Machine.execMbxCmdz off s
  | .mbxUnhdr off => Sys2Proof.Machine.execMbxUnhdr off s
  | .mbxRspv off => Sys2Proof.Machine.execMbxRspv off s
  | .spiPack off => Sys2Proof.Machine.execSpiPack off s
  | .spiUnpack off => Sys2Proof.Machine.execSpiUnpack off s
  | .eesUnpack off => Sys2Proof.Machine.execEesUnpack off s
  | .cycPack off => Sys2Proof.Machine.execCycPack off s
  | .cycUnpack off => Sys2Proof.Machine.execCycUnpack off s
  | .latchSet => Sys2Proof.Machine.execLatchSet s
  | .put8 r off => Sys2Proof.Machine.execPut8 r off s
  | .put16 r off => Sys2Proof.Machine.execPut16 r off s
  | .put32 r off => Sys2Proof.Machine.execPut32 r off s
  | .get8u r off => Sys2Proof.Machine.execGet8u r off s
  | .get8s r off => Sys2Proof.Machine.execGet8s r off s
  | .get16u r off => Sys2Proof.Machine.execGet16u r off s
  | .get16s r off => Sys2Proof.Machine.execGet16s r off s
  | .get32 r off => Sys2Proof.Machine.execGet32 r off s
  | .fillZ off len => Sys2Proof.Machine.execFillZ off len s
  | .fillF off len => Sys2Proof.Machine.execFillF off len s
  | .diff32 rd ra rb => Sys2Proof.Machine.execDiff32 rd ra rb s
  | .diff8 rd ra rb => Sys2Proof.Machine.execDiff8 rd ra rb s
  | .durAcc ra => Sys2Proof.Machine.execDurAcc ra s
  | .durClr => Sys2Proof.Machine.execDurClr s
  | .tsInit ra => Sys2Proof.Machine.execTsInit ra s
  | .tsStep rd ra => Sys2Proof.Machine.execTsStep rd ra s
  | .acc8 ra ch => Sys2Proof.Machine.execAcc8 ra ch s
  | .snap8 ra ch => Sys2Proof.Machine.execSnap8 ra ch s
  | .diagReset => Sys2Proof.Machine.execDiagReset s

end Sys2Proof.Machine
end

