-- ==== Sys2Proof/Machine/HostPort.lean ====
section
/-! DEFINITION. The host port: the register map of spec/10_state.md R27, R28, one host access (spec/20_memory.md R72,
R73), the CMD write that executes one operation (R29, R95), and the reset input (R44, R310). -/

namespace Sys2Proof.Machine

/-- The offset of CMD (R27). -/
def cmdOffset : Nat := 0x040

/-- What stands at a register offset of the window (R27). -/
inductive HostReg where
  | x (r : Reg)
  | cmd | status | errCmd | ckAcc | crcAcc | crcOut | frmLen | durLo | durHi
  | ts1 | ts2 | drops | consec | maxConsec | maxBt | maxBrt
  | total (ch : Chan)
  | snap (ch : Chan)
  deriving DecidableEq, Repr

/-- The single registers of the map, by offset (R27). -/
def namedRegister (off : Nat) : Option HostReg :=
  match off with
  | 0x040 => some .cmd
  | 0x044 => some .status
  | 0x048 => some .errCmd
  | 0x04C => some .ckAcc
  | 0x050 => some .crcAcc
  | 0x054 => some .crcOut
  | 0x058 => some .frmLen
  | 0x05C => some .durLo
  | 0x060 => some .durHi
  | 0x064 => some .ts1
  | 0x068 => some .ts2
  | 0x06C => some .drops
  | 0x070 => some .consec
  | 0x074 => some .maxConsec
  | 0x078 => some .maxBt
  | 0x07C => some .maxBrt
  | _ => none

/-- Which of `n` consecutive 32-bit registers from `base` stands at an offset. -/
def bankIndex (n base off : Nat) : Option (Fin n) :=
  if h : base ≤ off ∧ (off - base) / 4 < n then some ⟨(off - base) / 4, h.2⟩ else none

/-- The register at an aligned offset, if the offset is not reserved (R27). -/
def registerAt (off : Nat) : Option HostReg :=
  ((bankIndex Config.nx 0x000 off).map .x).or <|
  (namedRegister off).or <|
  ((bankIndex Config.nch 0x100 off).map .total).or <|
  (bankIndex Config.nch 0x140 off).map .snap

/-- A register as the host reads it; a narrower one reads with its upper bits 0, CMD reads as 0 (R27, R28, R33). -/
def State.readReg (s : State) : HostReg → Word
  | .x r => onPort (s.getX r)
  | .cmd => 0
  | .status => s.status.word
  | .errCmd => s.errCmd
  | .ckAcc => onPort s.ckAcc
  | .crcAcc => s.crcAcc
  | .crcOut => crcFinish s.crcAcc
  | .frmLen => s.frmLen
  | .durLo => s.dur.extractLsb' 0 32
  | .durHi => s.dur.extractLsb' 32 32
  | .ts1 => s.ts1
  | .ts2 => s.ts2
  | .drops => s.drops
  | .consec => s.consec
  | .maxConsec => s.maxConsec
  | .maxBt => onPort s.maxBt
  | .maxBrt => onPort s.maxBrt
  | .total ch => onPort s.total[ch]
  | .snap ch => onPort s.snap[ch]

/-- One operation, started by the host's write of `w` to CMD (R29): decoded (R95) and performed, or refused with
E_ILLEGAL or E_RESERVED (R96, R97). -/
def runCommand (w : Word) (s : State) : Result :=
  match decode w with
  | .ok i => exec i s
  | .error .illegal => .next (s.refuse .illegal w)
  | .error .reserved => .next (s.refuse .reserved w)

/-- A host write of `v` to a register (R27, R28): X, CKACC (bits 7:0) and CRCACC store it, CMD executes it, and a write
to a read-only register is ignored. -/
def writeReg (r : HostReg) (v : Word) (s : State) : Result :=
  match r with
  | .x i => .next (s.setX i (zext v))
  | .ckAcc => .next { s with ckAcc := v.extractLsb' 0 8 }
  | .crcAcc => .next { s with crcAcc := v }
  | .cmd => runCommand v s
  | _ => .next s

/-- A 32-bit access: only an aligned access to a register of the map is defined (R28, R72). `k` is what the access does
with the register. -/
def registerAccess (off : Nat) (k : HostReg → Result) : Result :=
  if Config.windowSize ≤ off then .fault (.outsideWindow off)
  else if Config.bufWindow + Config.bufSize ≤ off then .refused (.reservedOffset off)
  else if Config.bufWindow ≤ off then .refused (.accessShape off)
  else if off % 4 ≠ 0 then .refused (.accessShape off)
  else match registerAt off with
    | some r => k r
    | none => .refused (.reservedOffset off)

/-- A single-byte access: only an access to BUF is defined (R28, R73). `k` takes the buffer offset. -/
def byteAccess (off : Nat) (k : Nat → Result) : Result :=
  if Config.windowSize ≤ off then .fault (.outsideWindow off)
  else if Config.bufWindow + Config.bufSize ≤ off then .refused (.reservedOffset off)
  else if Config.bufWindow ≤ off then k (off - Config.bufWindow)
  else .refused (.accessShape off)

/-- The reset input (R44, R310): everything takes its reset value, BUF becomes unspecified anew (U2); what the host has
yet to do and was last told is the host's and stays. -/
def State.hardReset (s : State) : State :=
  { State.reset with resets := s.resets + 1, pending := s.pending, answer := s.answer }

/-- One event at the host port (R20, R72, R73). Reading has no effect on the block. -/
def performEvent (e : HostEvent) (s : State) : Result :=
  match e with
  | .read32 off => registerAccess off fun r => .next { s with answer := some (s.readReg r) }
  | .write32 off v => registerAccess off fun r => writeReg r v s
  | .read8 off => byteAccess off fun a => .next { s with answer := some (onPort (s.byte a)) }
  | .write8 off b => byteAccess off fun a => .next (s.setByte a b)
  | .otherSize off =>
    if Config.windowSize ≤ off then .fault (.outsideWindow off) else .refused (.accessShape off)
  | .hardReset => .next s.hardReset

/-- One step: the host's next event is performed, to completion (R80); with no event nothing changes (R20, R297). -/
def hostStep (s : State) : Result :=
  match s.pending with
  | [] => .next s
  | e :: rest => performEvent e { s with pending := rest }

end Sys2Proof.Machine
end

