-- ==== Sys2Proof/Safety.lean ====
section
/-! DEFINITION. The terms the claims use: the invariant of a safe run, the spec's tables of which operation may write
what (spec/10_state.md R22, R26), the operand ranges of spec/60_exceptions.md R281, and the spec's reading of the
buffer as byte sequences and numbers. Nothing of the machine depends on this file. -/

namespace Sys2Proof.Safety

open Sys2Proof.Machine

/-! ### Reading the buffer the spec's way (R8) -/

/-- `BUF[off .. off+n)` as a list. -/
def buf (s : State) (off n : Nat) : List Byte := (List.range n).map fun k => s.byte (off + k)

/-- A 16-bit little-endian field as a number (R75). -/
def u16 (s : State) (a : Nat) : Nat := (s.byte a).toNat + 256 * (s.byte (a + 1)).toNat

/-- A 32-bit little-endian field as a number (R75). -/
def u32 (s : State) (a : Nat) : Nat := u16 s a + 65536 * u16 s (a + 2)

/-- A number read as two's complement in n bits (R7). -/
def signed (n v : Nat) : Int := Int.bmod v (2 ^ n)

/-! ### Outcomes, field by field (R284 to R286) -/

/-- The state after a refusal with LASTERR = code of the command word w (R284). -/
def refused (s : State) (code : Byte) (w : Word) : State :=
  { s with status := { s.status with lastErr := code, errSeen := true }, errCmd := w }

/-- The host's write of the word `w` to CMD is refused with LASTERR = code, and nothing else happens, in every state
(R284). -/
abbrev WordRefused (w : Word) (code : Byte) : Prop :=
  ∀ (s : State) (rest : List HostEvent), s.pending = .write32 0x040 w :: rest →
    step s = .next (refused { s with pending := rest } code w)

/-- STATUS after success of an operation that does not write OK (R286). -/
def done (st : Status) : Status := { st with lastErr := 0 }

/-- STATUS after an operation that writes OK: code 0 is success, another code a verdict (R285, R286). -/
def verified (st : Status) (code : Byte) : Status := { st with ok := code == 0, lastErr := code }

/-- The code is of a refusal (R281, R298). -/
def isRefusal (code : Byte) : Bool := 1 ≤ code.toNat && code.toNat ≤ 7

/-- The code is of a verdict (R281, R298). -/
def isVerdict (code : Byte) : Bool := 8 ≤ code.toNat && code.toNat ≤ 15

/-- The code is one R281 lists. -/
def isListed (code : Byte) : Bool := code.toNat ≤ 5 || (8 ≤ code.toNat && code.toNat ≤ 13)

/-- What every safe state satisfies: BUF in canonical form, LASTERR a listed code, and STATUS consistent: a refusal code
means ERRSEEN, a verdict code means OK = 0, V_DROPS means DROPFAIL, and DROPFAIL means ERRLATCH (R281, R284, R285,
R213, R234). -/
abbrev Inv (s : State) : Prop :=
  Memory.wf s.buf = true ∧ isListed s.status.lastErr = true ∧
  (isRefusal s.status.lastErr = true → s.status.errSeen = true) ∧
  (isVerdict s.status.lastErr = true → s.status.ok = false) ∧
  (s.status.lastErr = 13 → s.status.dropFail = true) ∧
  (s.status.dropFail = true → s.status.errLatch = true)

/-! ### The encoding table, as masks (R91, R94) -/

/-- The must-be-zero bits of an assigned opcode; none where the opcode is unassigned. -/
def reservedMask (op : Nat) : Option Word :=
  if op ∈ [0x00, 0x01, 0x10, 0x20, 0x3A, 0x53, 0x58] then some 0x00FFFFFF
  else if op ∈ [0x11, 0x21] then some 0x00FFFF00
  else if op ∈ [0x12, 0x13, 0x14, 0x15, 0x22, 0x23, 0x24, 0x25, 0x4A, 0x4B] then some 0x00000000
  else if op ∈ [0x26, 0x27, 0x28, 0x29, 0x30, 0x31, 0x32, 0x33, 0x34, 0x35, 0x36, 0x37, 0x38, 0x39] then
    some 0x00FFF000
  else if op ∈ [0x40, 0x41, 0x42, 0x44, 0x45, 0x46, 0x47, 0x48] then some 0x000FF000
  else if op ∈ [0x50, 0x51] then some 0x00000FFF
  else if op ∈ [0x52, 0x54] then some 0x00F0FFFF
  else if op = 0x55 then some 0x0000FFFF
  else if op ∈ [0x56, 0x57] then some 0x00F0FF00
  else none

/-! ### Who may write what -/

/-- The X registers an operation writes (R22). -/
def xWritten : Instr → List Reg
  | .diff32 rd _ _ | .diff8 rd _ _ | .tsStep rd _ => [rd]
  | .get8u r _ | .get8s r _ | .get16u r _ | .get16s r _ | .get32 r _ => [r]
  | .mbxUnhdr _ => [0, 1, 2, 3]
  | .spiUnpack _ => [0, 1, 2]
  | .eesUnpack _ => [0]
  | .cycUnpack _ => [0, 1, 2, 3, 4, 5, 6, 7, 8, 9, 10, 11, 12, 13, 14, 15]
  | _ => []

/-- Bytes of the frame MBX.CMD and MBX.CMDZ make (R174). -/
def commandSize (s : State) : Nat := if s.getX 3 = 1 then 5 + (s.getX 1).toNat + 1 else 5

/-- The buffer ranges an operation stores to, as (offset, length) pairs. -/
def storeRanges (s : State) : Instr → List (Nat × Nat)
  | .ckSeal off len => [(off + len, 1)]
  | .crcSeal off len => [(off + len, 4)]
  | .aiGen off => [(off + 252, 4), (off + 260, 4)]
  | .ucGen off => [(off + 12, 4)]
  | .mbxHdr off => [(off, 5)]
  | .mbxCmd off => if s.getX 3 = 1 then [(off, 5), (off + 5 + (s.getX 1).toNat, 1)] else [(off, 5)]
  | .mbxCmdz off => [(off, commandSize s)]
  | .spiPack off => [(off, 3)]
  | .cycPack off => [(off, 8)]
  | .put8 _ off => [(off, 1)]
  | .put16 _ off => [(off, 2)]
  | .put32 _ off => [(off, 4)]
  | .fillZ off len | .fillF off len => [(off, len)]
  | _ => []

/-- A buffer offset lies in one of the ranges. -/
def within (ranges : List (Nat × Nat)) (a : Nat) : Prop := ∃ r ∈ ranges, r.1 ≤ a ∧ a < r.1 + r.2

/-- The range an operation checks before anything else (R281, E_RANGE; MBX.RSPV checks its length first). -/
def firstRange : Instr → Option (Nat × Nat)
  | .ckFold off len | .ckSum off len | .ckVfy off len | .crcFold off len | .crcSum off len => some (off, len)
  | .fillZ off len | .fillF off len => some (off, len)
  | .ckSeal off len => some (off, len + 1)
  | .crcSeal off len | .crcVfy off len => some (off, len + 4)
  | .aiGen off | .aiVfy off => some (off, 264)
  | .ucGen off | .ucVfy off => some (off, 16)
  | .mbxHdr off | .mbxCmd off | .mbxCmdz off | .mbxUnhdr off => some (off, 5)
  | .spiPack off | .spiUnpack off => some (off, 3)
  | .eesUnpack off => some (off, 1)
  | .cycPack off => some (off, 8)
  | .cycUnpack off => some (off, 44)
  | .put8 _ off | .get8u _ off | .get8s _ off => some (off, 1)
  | .put16 _ off | .get16u _ off | .get16s _ off => some (off, 2)
  | .put32 _ off | .get32 _ off => some (off, 4)
  | _ => none

/-- The operations that write OK (R26). -/
def writesOk : Instr → Bool
  | .ckVfy _ _ | .crcVfy _ _ | .aiVfy _ | .ucVfy _ | .mbxHdr _ | .mbxCmd _ | .mbxCmdz _ | .mbxUnhdr _ | .mbxRspv _
  | .cycUnpack _ | .tsStep _ _ => true
  | _ => false

/-- DIFF32, DIFF8, TS.STEP: the operations that write NEG (R26). -/
def writesNeg : Instr → Bool
  | .diff32 _ _ _ | .diff8 _ _ _ | .tsStep _ _ => true
  | _ => false

/-- ACC8, and the operations that write NEG: those that write WRAP (R26). -/
def writesWrap : Instr → Bool
  | .acc8 _ _ => true
  | i => writesNeg i

/-- TS.STEP (R231). -/
def isTsStep : Instr → Bool
  | .tsStep _ _ => true
  | _ => false

/-- AI.VFY (R153). -/
def isAiVfy : Instr → Bool
  | .aiVfy _ => true
  | _ => false

/-- CYC.PACK with the reset request, X3 bit 1 (R201, R212). -/
def isResetCommand (s : State) : Instr → Bool
  | .cycPack _ => (s.getX 3).toNat / 2 % 2 == 1
  | _ => false

/-- The operations that write CKACC (R326; CK.INIT, CK.BYTE and CK.FOLD by their own rules). -/
def writesCkAcc : Instr → Bool
  | .ckInit | .ckByte _ | .ckFold _ _ | .ckSum _ _ | .ckSeal _ _ | .ckVfy _ _ | .mbxRspv _ | .cycUnpack _ => true
  | _ => false

/-- The operations that write CRCACC (R326; CRC.INIT, CRC.BYTE and CRC.FOLD by their own rules). -/
def writesCrcAcc : Instr → Bool
  | .crcInit | .crcByte _ | .crcFold _ _ | .crcSum _ _ | .crcSeal _ _ | .crcVfy _ _ | .aiGen _ | .aiVfy _ | .ucGen _
  | .ucVfy _ => true
  | _ => false

/-- The operations that write FRMLEN (R34). -/
def writesFrmLen : Instr → Bool
  | .mbxHdr _ | .mbxCmd _ | .mbxCmdz _ | .spiPack _ | .cycPack _ => true
  | _ => false

/-- DUR.ACC and DUR.CLR (R35). -/
def writesDur : Instr → Bool
  | .durAcc _ | .durClr => true
  | _ => false

/-- TS.INIT and TS.STEP (R36). -/
def writesTimestamps : Instr → Bool
  | .tsInit _ | .tsStep _ _ => true
  | _ => false

/-- ACC8 and DIAG.RESET write TOTAL (R39, R240). -/
def writesTotal : Instr → Bool
  | .acc8 _ _ | .diagReset => true
  | _ => false

/-- ACC8 and SNAP8 write SNAP (R39, R242). -/
def writesSnap : Instr → Bool
  | .acc8 _ _ | .snap8 _ _ => true
  | _ => false

/-! ### Mailbox and cycle operands -/

/-- The largest payload of the direction in X3 (R171). -/
def maxLen (dir : Nat) : Nat := if dir = 1 then 506 else 511

/-- The operands a mailbox header can be built from (R173). -/
abbrev Buildable (s : State) : Prop :=
  (s.getX 3).toNat ≤ 1 ∧ 1 ≤ (s.getX 1).toNat ∧ (s.getX 1).toNat ≤ maxLen (s.getX 3).toNat ∧
    (s.getX 0).toNat < 0x2000

/-- `t` holds at `off` the MailboxHeader of X0..X3 of `s`, sealed (R170, R172). -/
abbrev HasHeader (s t : State) (off : Nat) : Prop :=
  u16 t off = (s.getX 0).toNat ∧
  u16 t (off + 2) = ((s.getX 1).toNat - 1) + 4096 * ((s.getX 2).toNat % 8) + 32768 * (s.getX 3).toNat ∧
  t.byte (off + 4) = rotr8 (cks (buf t off 4)) ∧ cks (buf t off 5) = 0

/-- The operands CYC.PACK accepts (R202). -/
abbrev Packable (s : State) : Prop :=
  (s.getX 0).toNat ≤ 1 ∧ (s.getX 3).toNat ≤ 3 ∧ (s.getX 2).toNat ≤ 0xFF ∧
    -32768 ≤ (s.getX 1).toInt ∧ (s.getX 1).toInt ≤ 32767

/-- `n` status frames in a row with the timestamp `ts`: before each TS.STEP the host puts it in X[ra]; with n = 0, `s`. -/
def feed (rd ra : Reg) (ts : Word) : Nat → State → Result
  | 0, s => .next s
  | n + 1, s =>
    match feed rd ra ts n s with
    | .next t => exec (.tsStep rd ra) (t.setX ra (zext ts))
    | o => o

/-- The CRC register of the non-reflected form: one shift towards the high bit with polynomial 0x04C11DB7 (R140). -/
def polyShift (a : Word) : Word := if a.msb then (a <<< 1) ^^^ 0x04C11DB7#32 else a <<< 1

/-- Eight such shifts after the byte entered at the high end (R140). -/
def polyStep (a : Word) (b : Byte) : Word := Nat.iterate polyShift 8 (a ^^^ (b.setWidth 32 <<< 24))

end Sys2Proof.Safety
end

