-- ==== Sys2Proof/Certificates/Slice0/Obligations.lean ====
section
/-! DEFINITION. The statements for the provers, from the numbered rules of spec/. -/

open Sys2Proof Sys2Proof.Machine

/-! ### Command words -/

/-- Decode and encode agree: decoding the word of a well-formed operation gives that operation back, whatever its
operands (R91, R92, R94). -/
def Obligations.DecodeOfEncodeIsIdentity : Prop :=
  ∀ i : Instr, i.wf = true → decode (encode i) = .ok i

/-- Decoding is total and exact (R95): an unassigned opcode is illegal, else a set must-be-zero bit is reserved, else the
word is one well-formed operation, the one it is the encoding of; so two words never mean the same operation. -/
def Obligations.EveryWordIsOneOperationOrRefused : Prop :=
  ∀ w : Word,
    match Safety.reservedMask (w.toNat / 2 ^ 24) with
    | none => decode w = .error .illegal
    | some m =>
      (w &&& m ≠ 0 → decode w = .error .reserved) ∧
      (w &&& m = 0 → ∃ i, i.wf = true ∧ decode w = .ok i ∧ encode i = w)

/-- A word with an assigned opcode and a set must-be-zero bit is refused with E_RESERVED and has no other effect (R96);
so is, with E_ILLEGAL, a word with an unassigned opcode. -/
def Obligations.ReservedAndUnassignedWordsAreRefused : Prop :=
  ∀ w : Word,
    (∀ m, Safety.reservedMask (w.toNat / 2 ^ 24) = some m → w &&& m ≠ 0 → Safety.WordRefused w 2) ∧
    (Safety.reservedMask (w.toNat / 2 ^ 24) = none → Safety.WordRefused w 1)

/-- A few words, written out from R94, decode to the operations they stand for. -/
def Obligations.SampleWordsDecode : Prop :=
  decode 0x12004005 = .ok (.ckFold 4 5) ∧ decode 0x243FD000 = .ok (.crcSeal 1021 0) ∧
  decode 0x310003F7 = .ok (.mbxCmd 1015) ∧ decode 0x4890000A = .ok (.get32 9 10) ∧
  decode 0x50312000 = .ok (.diff32 3 1 2) ∧ decode 0x55E00000 = .ok (.tsStep 14 0) ∧
  decode 0x56070003 = .ok (.acc8 7 3) ∧ decode 0x110000AB = .ok (.ckByte 0xAB) ∧
  decode 0x00000000 = .ok .nop

/-- A step runs the decoded instruction: the host's write of `w` to CMD performs exactly the operation `w` encodes, on
the state in which that access has been taken from the host's queue; and `withFetchWord` makes an operation the next
to run. -/
def Obligations.StepRunsTheDecodedOperation : Prop :=
  (∀ (s : State) (w : Word) (rest : List HostEvent) (i : Instr),
    s.pending = .write32 0x040 w :: rest → decode w = .ok i → step s = exec i { s with pending := rest }) ∧
  (∀ (s : State) (i : Instr), i.wf = true → step (s.withFetchWord 32 (encode i).toNat) = exec i s)

/-! ### Whole-machine rules -/

/-- Every step keeps the invariant of Safety.lean, from every state that meets it. -/
def Obligations.StepKeepsInvariant : Prop :=
  ∀ s t : State, Safety.Inv s → step s = .next t → Safety.Inv t

/-- The invariant holds right after reset. -/
def Obligations.ResetMeetsInvariant : Prop := Safety.Inv State.reset

/-- The reset input puts every register at its reset value, whatever the state was (R45, R310); and, by the
model's choice (notes/assumptions/1.md, 2.md, 9.md), BUF takes the free bytes of the new reset and the host's own queue
goes on. -/
def Obligations.HardResetValues : Prop :=
  ∀ (s : State) (rest : List HostEvent), s.pending = .hardReset :: rest →
    ∃ t, step s = .next t ∧ (∀ r, t.getX r = 0) ∧ t.status.word = 0 ∧ t.errCmd = 0 ∧ t.ckAcc = 0x42 ∧
      t.crcAcc = 0xFFFFFFFF ∧ t.readReg .crcOut = 0 ∧ t.frmLen = 0 ∧ t.dur = 0 ∧ t.ts1 = 0 ∧ t.ts2 = 0 ∧
      t.drops = 0 ∧ t.consec = 0 ∧ t.maxConsec = 0 ∧ t.maxBt = 0 ∧ t.maxBrt = 0 ∧
      (∀ ch : Fin 16, t.total[ch] = 0 ∧ t.snap[ch] = 0) ∧
      (∀ a, t.byte a = Config.bufAtReset (s.resets + 1) a) ∧ t.pending = rest

/-- A refusal writes LASTERR, ERRSEEN and ERRCMD and nothing else; ERRSEEN then stays until CLRERR or reset, and ERRCMD
until the next refusal or reset (R284). -/
def Obligations.RefusalHasNoOtherEffect : Prop :=
  (∀ (s t : State) (w : Word) (rest : List HostEvent),
    s.pending = .write32 0x040 w :: rest → step s = .next t → Safety.isRefusal t.status.lastErr = true →
    t = Safety.refused { s with pending := rest } t.status.lastErr w) ∧
  (∀ (s t : State) (w : Word) (rest : List HostEvent),
    s.pending = .write32 0x040 w :: rest → step s = .next t → Safety.isRefusal t.status.lastErr = false →
    t.errCmd = s.errCmd ∧ (w ≠ 0x01000000 → t.status.errSeen = s.status.errSeen)) ∧
  (∀ (s t : State) (e : HostEvent) (rest : List HostEvent),
    s.pending = e :: rest → e ≠ .hardReset → (∀ w, e ≠ .write32 0x040 w) → step s = .next t →
    t.status = s.status ∧ t.errCmd = s.errCmd)

/-- Every operation completes with a listed code; a verdict leaves OK at 0, a success of an operation that writes OK
leaves it at 1, and neither writes ERRCMD (R280, R281, R285, R286). -/
def Obligations.EveryOperationEndsInOneOutcome : Prop :=
  ∀ (i : Instr) (s : State), ∃ t, exec i s = .next t ∧ Safety.isListed t.status.lastErr = true ∧
    (Safety.isVerdict t.status.lastErr = true →
      Safety.writesOk i = true ∧ t.status.ok = false ∧ t.status.errSeen = s.status.errSeen ∧ t.errCmd = s.errCmd) ∧
    (t.status.lastErr = 0 → t.errCmd = s.errCmd ∧ (Safety.writesOk i = true → t.status.ok = true))

/-- Which operations write which of the STATUS fields OK, WRAP, NEG, DUP, CRC256_OK, CRC264_OK, JUMP, DROPFAIL and
ERRSEEN, as R26 lists them, and STATUS after reset. LASTERR stands in `EveryOperationEndsInOneOutcome`, ERRLATCH in
`ErrorLatchTransitions`. -/
def Obligations.StatusFieldsAreWrittenOnlyAsListed : Prop :=
  (∀ (i : Instr) (s t : State), exec i s = .next t →
    (t.status.ok = if Safety.writesOk i then
        (if Safety.isRefusal t.status.lastErr then s.status.ok else t.status.lastErr == 0) else s.status.ok) ∧
    (Safety.writesWrap i = false → t.status.wrap = s.status.wrap) ∧
    (Safety.writesNeg i = false → t.status.neg = s.status.neg) ∧
    (Safety.isTsStep i = false → t.status.dup = s.status.dup) ∧
    (Safety.isAiVfy i = false → t.status.crc256Ok = s.status.crc256Ok ∧ t.status.crc264Ok = s.status.crc264Ok) ∧
    (t.status.jump ≠ s.status.jump → if t.status.jump then Safety.isTsStep i = true
      else Safety.isResetCommand s i = true ∧ t.status.lastErr = 0) ∧
    (t.status.dropFail ≠ s.status.dropFail → if t.status.dropFail then Safety.isTsStep i = true
      else Safety.isResetCommand s i = true ∧ t.status.lastErr = 0) ∧
    (t.status.errSeen = if Safety.isRefusal t.status.lastErr then true
      else if i = .clrerr then false else s.status.errSeen)) ∧
  State.reset.status.word = 0

/-- The error latch is a two-state machine (R212): it is set by LATCH.SET and by a TS.STEP that returns V_DROPS, cleared
by a successful CYC.PACK with the reset request and by hardware reset, and by nothing else: the first clause is about
the operations, the second about every other event at the host port, refused words among them. -/
def Obligations.ErrorLatchTransitions : Prop :=
  (∀ (i : Instr) (s t : State), exec i s = .next t →
    (t.status.errLatch = true ↔
      i = .latchSet ∨ (Safety.isTsStep i = true ∧ t.status.lastErr = 13) ∨
      (s.status.errLatch = true ∧ ¬ (Safety.isResetCommand s i = true ∧ t.status.lastErr = 0)))) ∧
  (∀ (s t : State) (e : HostEvent) (rest : List HostEvent),
    s.pending = e :: rest → (∀ w i, decode w = .ok i → e ≠ .write32 0x040 w) → step s = .next t →
    (t.status.errLatch = true ↔ s.status.errLatch = true ∧ e ≠ .hardReset))

/-- An operation writes no X register but those R22 lists for it. -/
def Obligations.XRegistersAreWrittenOnlyAsListed : Prop :=
  ∀ (i : Instr) (s t : State) (r : Reg), exec i s = .next t → r ∉ Safety.xWritten i → t.getX r = s.getX r

/-- An operation changes no byte of BUF outside the ranges its rule stores to. -/
def Obligations.BufferIsWrittenOnlyInStoreRanges : Prop :=
  ∀ (i : Instr) (s t : State) (a : Nat), exec i s = .next t → ¬ Safety.within (Safety.storeRanges s i) a →
    t.byte a = s.byte a

/-- The special registers are written only by the operations the spec names (R34 to R39, R326), and the temperature
maxima never decrease except by DIAG.RESET (R208). -/
def Obligations.SpecialRegistersAreWrittenOnlyAsListed : Prop :=
  ∀ (i : Instr) (s t : State), exec i s = .next t →
    (Safety.writesCkAcc i = false → t.ckAcc = s.ckAcc) ∧
    (Safety.writesCrcAcc i = false → t.crcAcc = s.crcAcc) ∧
    (Safety.writesFrmLen i = false → t.frmLen = s.frmLen) ∧
    (Safety.writesDur i = false → t.dur = s.dur) ∧
    (Safety.writesTimestamps i = false → t.ts1 = s.ts1 ∧ t.ts2 = s.ts2 ∧ t.consec = s.consec) ∧
    (Safety.isTsStep i = false → i ≠ .diagReset → t.drops = s.drops ∧ t.maxConsec = s.maxConsec) ∧
    (Safety.writesTotal i = false → t.total = s.total) ∧
    (Safety.writesSnap i = false → t.snap = s.snap) ∧
    (i ≠ .diagReset → s.maxBt.toNat ≤ t.maxBt.toNat ∧ s.maxBrt.toNat ≤ t.maxBrt.toNat) ∧
    ((∀ off, i ≠ .cycUnpack off) → i ≠ .diagReset → t.maxBt = s.maxBt ∧ t.maxBrt = s.maxBrt) ∧
    t.resets = s.resets ∧ t.pending = s.pending ∧ t.answer = s.answer

/-- An operation whose first range would touch an offset past BUF is refused with E_RANGE and changes nothing else
(R74). -/
def Obligations.OutOfRangeOperandsAreRefused : Prop :=
  ∀ (i : Instr) (s : State) (off n : Nat), Safety.firstRange i = some (off, n) → 1024 < off + n →
    exec i s = .next (Safety.refused s 3 (encode i))

/-! ### The host port -/

/-- A single-byte access to BUF (R73): a read delivers the byte and has no other effect, a write replaces that byte and
nothing else. -/
def Obligations.HostByteAccess : Prop :=
  ∀ (s : State) (rest : List HostEvent) (a : Nat), a < 1024 →
    (s.pending = .read8 (0x1000 + a) :: rest →
      step s = .next { s with pending := rest, answer := some ((s.byte a).setWidth 32) }) ∧
    (∀ b, s.pending = .write8 (0x1000 + a) b :: rest →
      ∃ t, step s = .next t ∧ t = { s with pending := rest, buf := t.buf } ∧
        ∀ k, t.byte k = if k = a then b else s.byte k)

/-- What a 32-bit read delivers at each register of the map (R27); reading changes nothing in the block (R72). -/
def Obligations.HostRegisterReads : Prop :=
  ∀ (s : State) (rest : List HostEvent) (off : Nat) (v : Word),
    s.pending = .read32 off :: rest →
    ((∃ r : Reg, off = 4 * r.val ∧ v = s.getX r) ∨
     (∃ ch : Fin 16, off = 0x100 + 4 * ch.val ∧ v = s.total[ch]) ∨
     (∃ ch : Fin 16, off = 0x140 + 4 * ch.val ∧ v = s.snap[ch].setWidth 32) ∨
     (off, v) ∈ [(0x040, 0), (0x044, s.status.word), (0x048, s.errCmd), (0x04C, s.ckAcc.setWidth 32),
       (0x050, s.crcAcc), (0x054, s.crcAcc ^^^ 0xFFFFFFFF#32), (0x058, s.frmLen),
       (0x05C, BitVec.ofNat 32 s.dur.toNat), (0x060, BitVec.ofNat 32 (s.dur.toNat / 2 ^ 32)),
       (0x064, s.ts1), (0x068, s.ts2), (0x06C, s.drops), (0x070, s.consec), (0x074, s.maxConsec),
       (0x078, s.maxBt.setWidth 32), (0x07C, s.maxBrt.setWidth 32)]) →
    step s = .next { s with pending := rest, answer := some v }

/-- What a 32-bit write does at each register of the map (R28, R31, R32): X, CRCACC and the low byte of CKACC are stored,
a read-only register ignores it. -/
def Obligations.HostRegisterWrites : Prop :=
  ∀ (s : State) (rest : List HostEvent) (off : Nat) (v : Word),
    s.pending = .write32 off v :: rest →
    (∀ r : Reg, off = 4 * r.val → ∃ t, step s = .next t ∧ t = { s with pending := rest, x := t.x } ∧
      ∀ q, t.getX q = if q = r then v else s.getX q) ∧
    (off = 0x04C → step s = .next { s with pending := rest, ckAcc := BitVec.ofNat 8 (v.toNat % 256) }) ∧
    (off = 0x050 → step s = .next { s with pending := rest, crcAcc := v }) ∧
    ((off ∈ [0x044, 0x048, 0x054, 0x058, 0x05C, 0x060, 0x064, 0x068, 0x06C, 0x070, 0x074, 0x078, 0x07C] ∨
        (0x100 ≤ off ∧ off < 0x180 ∧ off % 4 = 0)) →
      step s = .next { s with pending := rest })

/-- The layout of STATUS (R25): each field at its bits, every other bit 0. -/
def Obligations.StatusRegisterLayout : Prop :=
  ∀ st : Status, st.word.toNat =
    st.ok.toNat + 2 * st.wrap.toNat + 4 * st.neg.toNat + 8 * st.dup.toNat + 16 * st.crc256Ok.toNat +
      32 * st.crc264Ok.toNat + 2 ^ 8 * st.jump.toNat + 2 ^ 9 * st.dropFail.toNat + 2 ^ 10 * st.errLatch.toNat +
      2 ^ 11 * st.errSeen.toNat + 2 ^ 16 * st.lastErr.toNat

/-- The model's choice (notes/assumptions/5.md, 7.md; spec/93 U1): a step with no host event changes nothing; an access
no rule defines is refused by name; an access outside the window faults. -/
def Obligations.UndefinedAccessesStop : Prop :=
  (∀ s : State, s.pending = [] → step s = .next s) ∧
  (∀ (s : State) (rest : List HostEvent) (off : Nat) (v : Word) (b : Byte),
    (s.pending = .read32 off :: rest ∨ s.pending = .write32 off v :: rest ∨ s.pending = .read8 off :: rest ∨
      s.pending = .write8 off b :: rest ∨ s.pending = .otherSize off :: rest) →
    (0x2000 ≤ off → step s = .fault (.outsideWindow off)) ∧
    (s.pending = .otherSize off :: rest → off < 0x2000 → step s = .refused (.accessShape off)) ∧
    (s.pending ≠ .otherSize off :: rest → 0x1400 ≤ off → off < 0x2000 → step s = .refused (.reservedOffset off))) ∧
  (∀ (s : State) (rest : List HostEvent) (off : Nat) (v : Word),
    (s.pending = .read32 off :: rest ∨ s.pending = .write32 off v :: rest) →
    ((0x080 ≤ off ∧ off < 0x100 ∨ 0x180 ≤ off ∧ off < 0x1000) → off % 4 = 0 →
      step s = .refused (.reservedOffset off)) ∧
    ((off < 0x1000 ∧ off % 4 ≠ 0 ∨ 0x1000 ≤ off ∧ off < 0x1400) → step s = .refused (.accessShape off))) ∧
  (∀ (s : State) (rest : List HostEvent) (off : Nat) (b : Byte),
    (s.pending = .read8 off :: rest ∨ s.pending = .write8 off b :: rest) →
    off < 0x1000 → step s = .refused (.accessShape off))

/-! ### System operations and those without operands -/

/-- NOP (R270) and CLRERR (R271). -/
def Obligations.SystemOperations : Prop :=
  decode 0x00000000 = .ok .nop ∧ decode 0x01000000 = .ok .clrerr ∧
  (∀ w : Word, 0 < w.toNat → w.toNat < 0x02000000 → w ≠ 0x01000000 → Safety.WordRefused w 2) ∧
  ∀ s : State,
    exec .nop s = .next { s with status := { s.status with lastErr := 0 } } ∧
    exec .clrerr s = .next { s with status := { s.status with lastErr := 0, errSeen := false } }

/-- CK.INIT (R125), CRC.INIT (R144) and DUR.CLR (R227): encoding, reserved words, effect. -/
def Obligations.AccumulatorClears : Prop :=
  decode 0x10000000 = .ok .ckInit ∧ decode 0x20000000 = .ok .crcInit ∧ decode 0x53000000 = .ok .durClr ∧
  (∀ w : Word, (0x10000000 < w.toNat ∧ w.toNat < 0x11000000 ∨ 0x20000000 < w.toNat ∧ w.toNat < 0x21000000 ∨
    0x53000000 < w.toNat ∧ w.toNat < 0x54000000) → Safety.WordRefused w 2) ∧
  ∀ s : State,
    exec .ckInit s = .next { s with ckAcc := 0x42, status := Safety.done s.status } ∧
    (∃ t, exec .crcInit s = .next t ∧ t = { s with crcAcc := 0xFFFFFFFF, status := Safety.done s.status } ∧
      t.readReg .crcOut = 0) ∧
    exec .durClr s = .next { s with dur := 0, status := Safety.done s.status }

/-! ### Checksum unit -/

/-- The checksum functions (R120 to R122): the rotation in both of its forms with the examples of R120, the step, and
the fold from the seed, which composes over concatenation. -/
def Obligations.ChecksumFunctions : Prop :=
  (∀ a : Byte, rotr8 a = a.extractLsb' 0 1 ++ a.extractLsb' 1 7 ∧
    (rotr8 a).toNat = ((a.toNat >>> 1) ||| (a.toNat <<< 7)) &&& 0xFF) ∧
  [0x00#8, 0x01#8, 0x02#8, 0x42#8, 0x80#8, 0x81#8, 0xFF#8].map rotr8 =
    [0x00#8, 0x80#8, 0x01#8, 0x21#8, 0x40#8, 0xC0#8, 0xFF#8] ∧
  (∀ a b : Byte, cksStep a b = rotr8 a ^^^ b) ∧
  cks [] = 0x42 ∧
  (∀ a : Byte, cksFrom a [] = a ∧ ∀ b bs, cksFrom a (b :: bs) = cksFrom (cksStep a b) bs) ∧
  (∀ s t : List Byte, cks s = cksFrom 0x42 s ∧ cks (s ++ t) = cksFrom (cks s) t)

/-- A payload has exactly one trailing byte that makes it a valid ChecksumFrame, `rotr8` of its checksum (R123), and no
one-byte change of a valid frame is valid (R124). -/
def Obligations.ChecksumFrameProperties : Prop :=
  (∀ (p : List Byte) (t : Byte), cks (p ++ [t]) = 0 ↔ t = rotr8 (cks p)) ∧
  (∀ (p q : List Byte) (b c : Byte), cks (p ++ b :: q) = 0 → c ≠ b → cks (p ++ c :: q) ≠ 0)

/-- CK.BYTE, CK.FOLD and CK.SUM in range (R126 to R128): the new CKACC, and nothing else but LASTERR. -/
def Obligations.ChecksumFoldResults : Prop :=
  (∀ (imm : Byte) (s : State),
    exec (.ckByte imm) s = .next { s with ckAcc := rotr8 s.ckAcc ^^^ imm, status := Safety.done s.status }) ∧
  (∀ (off len : Nat) (s : State), off + len ≤ 1024 →
    exec (.ckFold off len) s =
      .next { s with ckAcc := cksFrom s.ckAcc (Safety.buf s off len), status := Safety.done s.status } ∧
    exec (.ckSum off len) s =
      .next { s with ckAcc := cks (Safety.buf s off len), status := Safety.done s.status })

/-- CK.SEAL in range writes the one byte after the payload, to BUF and to CKACC, and OK is not written (R129); CK.VFY in
range leaves the fold of the frame in CKACC, OK tells whether it is 0, BUF is not written (R130). -/
def Obligations.ChecksumSealAndVerifyResults : Prop :=
  (∀ (off len : Nat) (s : State), off + len + 1 ≤ 1024 →
    ∃ t, exec (.ckSeal off len) s = .next t ∧
      t = { s with buf := t.buf, ckAcc := rotr8 (cks (Safety.buf s off len)), status := Safety.done s.status } ∧
      ∀ a, t.byte a = if a = off + len then rotr8 (cks (Safety.buf s off len)) else s.byte a) ∧
  (∀ (off len : Nat) (s : State), off + len ≤ 1024 →
    exec (.ckVfy off len) s = .next { s with
      ckAcc := cks (Safety.buf s off len)
      status := Safety.verified s.status (if cks (Safety.buf s off len) = 0 then 0 else 10) })

/-- After CK.SEAL off, len, CK.VFY off, len+1 succeeds; if one byte of the sealed frame is then changed, it returns
V_CKSUM (R129, R131, R124). -/
def Obligations.SealedFrameVerifies : Prop :=
  ∀ (off len : Nat) (s : State), off + len + 1 ≤ 1024 →
    ∃ t, exec (.ckSeal off len) s = .next t ∧
      (∃ u, exec (.ckVfy off (len + 1)) t = .next u ∧ u.status.ok = true ∧ u.status.lastErr = 0 ∧ u.ckAcc = 0) ∧
      ∀ (p : Nat) (b : Byte), p ≤ len → b ≠ t.byte (off + p) →
        ∃ u, exec (.ckVfy off (len + 1)) (t.setByte (off + p) b) = .next u ∧ u.status.ok = false ∧
          u.status.lastErr = 10 ∧ u.ckAcc ≠ 0

/-! ### CRC unit -/

/-- `crc_step` is the bit-reflected form of eight shifts with the generator polynomial 0x04C11DB7 (R140). -/
def Obligations.CrcStepIsReflectedPolynomialDivision : Prop :=
  ∀ (a : Word) (b : Byte), (crcStep a b).reverse = Safety.polyStep a.reverse b.reverse

/-- The fold composes (R141), and the raw register after a message and its own stored CRC is 0xDEBB20E3 (R142). -/
def Obligations.CrcFoldAndResidue : Prop :=
  (∀ a : Word, crcFold a [] = a ∧ ∀ b bs, crcFold a (b :: bs) = crcFold (crcStep a b) bs) ∧
  (∀ (a : Word) (s t : List Byte), crcFold a (s ++ t) = crcFold (crcFold a s) t) ∧
  (∀ s : List Byte, crc32 s = crcFold 0xFFFFFFFF s ^^^ 0xFFFFFFFF#32) ∧
  (∀ s : List Byte, crcFold 0xFFFFFFFF (s ++ le32 (crc32 s)) = 0xDEBB20E3)

/-- A change of one byte always changes a CRC-32 (the fact R154 rests on). -/
def Obligations.CrcDetectsOneByteChange : Prop :=
  ∀ (p q : List Byte) (b c : Byte), b ≠ c → crc32 (p ++ b :: q) ≠ crc32 (p ++ c :: q)

/-- CRC.BYTE, CRC.FOLD and CRC.SUM in range (R145 to R147): the new CRCACC, what CRCOUT then reads, and nothing else but
LASTERR. -/
def Obligations.CrcFoldResults : Prop :=
  (∀ (imm : Byte) (s : State),
    exec (.crcByte imm) s = .next { s with crcAcc := crcStep s.crcAcc imm, status := Safety.done s.status }) ∧
  (∀ (off len : Nat) (s : State), off + len ≤ 1024 →
    exec (.crcFold off len) s =
      .next { s with crcAcc := crcFold s.crcAcc (Safety.buf s off len), status := Safety.done s.status } ∧
    ∃ t, exec (.crcSum off len) s = .next t ∧
      t = { s with crcAcc := crcFold 0xFFFFFFFF (Safety.buf s off len), status := Safety.done s.status } ∧
      t.readReg .crcOut = crc32 (Safety.buf s off len))

/-- CRC.SEAL and CRC.VFY in range (R148, R149): the stored CRC lies after its range, least significant byte first. -/
def Obligations.CrcSealAndVerifyResults : Prop :=
  ∀ (off len : Nat) (s : State), off + len + 4 ≤ 1024 →
    (∃ t, exec (.crcSeal off len) s = .next t ∧
      t = { s with buf := t.buf, crcAcc := crcFold 0xFFFFFFFF (Safety.buf s off len),
                   status := Safety.done s.status } ∧
      Safety.u32 t (off + len) = (crc32 (Safety.buf s off len)).toNat ∧
      ∀ a, (a < off + len ∨ off + len + 4 ≤ a) → t.byte a = s.byte a) ∧
    exec (.crcVfy off len) s = .next { s with
      crcAcc := crcFold 0xFFFFFFFF (Safety.buf s off len)
      status := Safety.verified s.status
        (if (crc32 (Safety.buf s off len)).toNat = Safety.u32 s (off + len) then 0 else 11) }

/-- AI.GEN in range (R152): the first CRC is stored before the second, which covers it; no other byte changes. -/
def Obligations.ActuatorRecordGeneration : Prop :=
  ∀ (off : Nat) (s : State), off + 264 ≤ 1024 →
    ∃ t, exec (.aiGen off) s = .next t ∧
      t = { s with buf := t.buf, crcAcc := crcFold 0xFFFFFFFF (Safety.buf t off 260),
                   status := Safety.done s.status } ∧
      Safety.u32 t (off + 252) = (crc32 (Safety.buf s off 252)).toNat ∧
      Safety.u32 t (off + 260) = (crc32 (Safety.buf t off 260)).toNat ∧
      ∀ a, (a < off + 252 ∨ (off + 256 ≤ a ∧ a < off + 260) ∨ off + 264 ≤ a) → t.byte a = s.byte a

/-- AI.VFY in range (R151, R153): both comparisons are made and recorded, either suffices, BUF is not written. -/
def Obligations.ActuatorRecordVerification : Prop :=
  ∀ (off : Nat) (s : State) (k256 k264 : Bool), off + 264 ≤ 1024 →
    (k256 = true ↔ (crc32 (Safety.buf s off 252)).toNat = Safety.u32 s (off + 252)) →
    (k264 = true ↔ (crc32 (Safety.buf s off 260)).toNat = Safety.u32 s (off + 260)) →
    exec (.aiVfy off) s = .next { s with
      crcAcc := crcFold 0xFFFFFFFF (Safety.buf s off 260)
      status := Safety.verified { s.status with crc256Ok := k256, crc264Ok := k264 }
        (if k256 || k264 then 0 else 11) }

/-- A record sealed by AI.GEN verifies with both flags; after a change of one byte, AI.VFY answers as the table of R154
says for that byte's place. -/
def Obligations.ActuatorRecordCorruption : Prop :=
  ∀ (off : Nat) (s : State), off + 264 ≤ 1024 →
    ∃ t, exec (.aiGen off) s = .next t ∧
      (∃ u, exec (.aiVfy off) t = .next u ∧ u.status.lastErr = 0 ∧ u.status.ok = true ∧
        u.status.crc256Ok = true ∧ u.status.crc264Ok = true) ∧
      ∀ (p : Nat) (b : Byte), p < 264 → b ≠ t.byte (off + p) →
        ∃ u, exec (.aiVfy off) (t.setByte (off + p) b) = .next u ∧
          u.status.crc256Ok = decide (256 ≤ p) ∧ u.status.crc264Ok = false ∧
          u.status.ok = decide (256 ≤ p) ∧ u.status.lastErr = if 256 ≤ p then 0 else 11

/-- UC.GEN and UC.VFY in range (R156, R157): the CRC is tested before the version byte, which must be 1; after UC.GEN,
UC.VFY succeeds or, for another version byte, returns V_VERSION. -/
def Obligations.UserConfigRecord : Prop :=
  ∀ (off : Nat) (s : State), off + 16 ≤ 1024 →
    exec (.ucVfy off) s = .next { s with
      crcAcc := crcFold 0xFFFFFFFF (Safety.buf s off 12)
      status := Safety.verified s.status
        (if (crc32 (Safety.buf s off 12)).toNat ≠ Safety.u32 s (off + 12) then 11
         else if s.byte off ≠ 1 then 12 else 0) } ∧
    ∃ t, exec (.ucGen off) s = .next t ∧
      t = { s with buf := t.buf, crcAcc := crcFold 0xFFFFFFFF (Safety.buf s off 12),
                   status := Safety.done s.status } ∧
      Safety.u32 t (off + 12) = (crc32 (Safety.buf s off 12)).toNat ∧
      (∀ a, (a < off + 12 ∨ off + 16 ≤ a) → t.byte a = s.byte a) ∧
      ∃ u, exec (.ucVfy off) t = .next u ∧ u.status.lastErr = if s.byte off = 1 then 0 else 12

/-! ### Mailbox and SPI frames -/

/-- MBX.HDR with operands it accepts (R170, R172, R173): the five header bytes, FRMLEN = 5, OK = 1, nothing else. -/
def Obligations.MailboxHeaderIsBuilt : Prop :=
  ∀ (off : Nat) (s : State), off + 5 ≤ 1024 → Safety.Buildable s →
    ∃ t, exec (.mbxHdr off) s = .next t ∧
      t = { s with buf := t.buf, frmLen := 5, status := Safety.verified s.status 0 } ∧
      Safety.HasHeader s t off ∧ ∀ a, (a < off ∨ off + 5 ≤ a) → t.byte a = s.byte a

/-- MBX.CMD with operands it accepts and a frame inside BUF (R174, R175, R179): the header; for a write also one checksum
byte after the host's L data bytes, so that each region is a ChecksumFrame; a read is the header alone. -/
def Obligations.MailboxCommandIsBuilt : Prop :=
  ∀ (off : Nat) (s : State), Safety.Buildable s → off + Safety.commandSize s ≤ 1024 →
    ∃ t, exec (.mbxCmd off) s = .next t ∧
      t = { s with buf := t.buf, frmLen := BitVec.ofNat 32 (Safety.commandSize s),
                   status := Safety.verified s.status 0 } ∧
      Safety.HasHeader s t off ∧
      (s.getX 3 = 1 →
        t.byte (off + 5 + (s.getX 1).toNat) = rotr8 (cks (Safety.buf s (off + 5) (s.getX 1).toNat)) ∧
        cks (Safety.buf t (off + 5) ((s.getX 1).toNat + 1)) = 0) ∧
      ∀ a, (a < off ∨ off + 5 ≤ a) → (s.getX 3 = 1 → a ≠ off + 5 + (s.getX 1).toNat) → t.byte a = s.byte a

/-- MBX.CMDZ with operands it accepts and a frame inside BUF (R176): as MBX.CMD, with the data region of a write
zero-filled. -/
def Obligations.ZeroFilledMailboxCommandIsBuilt : Prop :=
  ∀ (off : Nat) (s : State), Safety.Buildable s → off + Safety.commandSize s ≤ 1024 →
    ∃ t, exec (.mbxCmdz off) s = .next t ∧
      t = { s with buf := t.buf, frmLen := BitVec.ofNat 32 (Safety.commandSize s),
                   status := Safety.verified s.status 0 } ∧
      Safety.HasHeader s t off ∧
      (s.getX 3 = 1 →
        (∀ k, k < (s.getX 1).toNat → t.byte (off + 5 + k) = 0) ∧
        t.byte (off + 5 + (s.getX 1).toNat) = rotr8 (cks (List.replicate (s.getX 1).toNat 0)) ∧
        cks (Safety.buf t (off + 5) ((s.getX 1).toNat + 1)) = 0) ∧
      ∀ a, (a < off ∨ off + Safety.commandSize s ≤ a) → t.byte a = s.byte a

/-- Where the three builders do not build (R173, R175, R176, R282), in the order of the checks: a direction above 1 is
refused, then a bad length and then a bad address are verdicts, then MBX.CMD and MBX.CMDZ refuse a write frame that
does not fit BUF; nothing else changes. -/
def Obligations.MailboxBuildersCheckInOrder : Prop :=
  ∀ (off : Nat) (s : State) (i : Instr), off + 5 ≤ 1024 →
    i ∈ [Instr.mbxHdr off, Instr.mbxCmd off, Instr.mbxCmdz off] →
    let len := (s.getX 1).toNat
    let dir := (s.getX 3).toNat
    (1 < dir → exec i s = .next (Safety.refused s 5 (encode i))) ∧
    (dir ≤ 1 → (len = 0 ∨ Safety.maxLen dir < len) →
      exec i s = .next { s with status := Safety.verified s.status 8 }) ∧
    (dir ≤ 1 → 1 ≤ len → len ≤ Safety.maxLen dir → 0x2000 ≤ (s.getX 0).toNat →
      exec i s = .next { s with status := Safety.verified s.status 9 }) ∧
    (Safety.Buildable s → i ≠ .mbxHdr off → 1024 < off + Safety.commandSize s →
      exec i s = .next (Safety.refused s 3 (encode i)))

/-- MBX.UNHDR in range (R177): V_CKSUM changes no X register; otherwise X0..X3 take the fields, and V_ADDR comes before
V_LEN. -/
def Obligations.MailboxHeaderIsParsed : Prop :=
  ∀ (off : Nat) (s : State), off + 5 ≤ 1024 →
    (cks (Safety.buf s off 5) ≠ 0 →
      exec (.mbxUnhdr off) s = .next { s with status := Safety.verified s.status 10 }) ∧
    (cks (Safety.buf s off 5) = 0 →
      ∃ t, exec (.mbxUnhdr off) s = .next t ∧
        (let a := Safety.u16 s off
         let c := Safety.u16 s (off + 2)
         t = { s with
           x := t.x
           status := Safety.verified s.status
             (if 0x2000 ≤ a then 9 else if Safety.maxLen (c / 32768) < c % 4096 + 1 then 8 else 0) } ∧
         (t.getX 0).toNat = a ∧ (t.getX 1).toNat = c % 4096 + 1 ∧ (t.getX 2).toNat = c / 4096 % 8 ∧
         (t.getX 3).toNat = c / 32768 ∧ ∀ r : Reg, 4 ≤ r.val → t.getX r = s.getX r))

/-- For every header MBX.HDR builds, MBX.UNHDR succeeds and returns X0, X1 and X3 as given and X2 modulo 8 (R177). -/
def Obligations.BuiltHeaderParsesBack : Prop :=
  ∀ (off : Nat) (s : State), off + 5 ≤ 1024 → Safety.Buildable s →
    ∃ t u, exec (.mbxHdr off) s = .next t ∧ exec (.mbxUnhdr off) t = .next u ∧
      u.status.ok = true ∧ u.status.lastErr = 0 ∧
      u.getX 0 = s.getX 0 ∧ u.getX 1 = s.getX 1 ∧ (u.getX 2).toNat = (s.getX 2).toNat % 8 ∧ u.getX 3 = s.getX 3

/-- MBX.RSPV (R178): the length is tested before the range; then the fold of payload and checksum byte. -/
def Obligations.MailboxResponseVerification : Prop :=
  ∀ (off : Nat) (s : State),
    let len := (s.getX 1).toNat
    ((len = 0 ∨ 511 < len) → exec (.mbxRspv off) s = .next { s with status := Safety.verified s.status 8 }) ∧
    (1 ≤ len → len ≤ 511 → 1024 < off + len + 1 →
      exec (.mbxRspv off) s = .next (Safety.refused s 3 (encode (.mbxRspv off)))) ∧
    (1 ≤ len → len ≤ 511 → off + len + 1 ≤ 1024 →
      exec (.mbxRspv off) s = .next { s with
        ckAcc := cks (Safety.buf s off (len + 1))
        status := Safety.verified s.status (if cks (Safety.buf s off (len + 1)) = 0 then 0 else 10) })

/-- SPI.PACK, SPI.UNPACK and EES.UNPACK in range (R181 to R183). -/
def Obligations.SpiFrames : Prop :=
  (∀ (off : Nat) (s : State), off + 3 ≤ 1024 →
    ((s.getX 0).toNat ≤ 15 → (s.getX 1).toNat ≤ 0xFFFF →
      ∃ t, exec (.spiPack off) s = .next t ∧
        t = { s with buf := t.buf, frmLen := 3, status := Safety.done s.status } ∧
        Safety.u16 t off = (s.getX 1).toNat ∧ (t.byte (off + 2)).toNat = (s.getX 0).toNat ∧
        ∀ a, (a < off ∨ off + 3 ≤ a) → t.byte a = s.byte a) ∧
    ((15 < (s.getX 0).toNat ∨ 0xFFFF < (s.getX 1).toNat) →
      exec (.spiPack off) s = .next (Safety.refused s 5 (encode (.spiPack off)))) ∧
    ∃ t, exec (.spiUnpack off) s = .next t ∧ t = { s with x := t.x, status := Safety.done s.status } ∧
      (t.getX 1).toNat = Safety.u16 s off ∧ (t.getX 0).toNat = (s.byte (off + 2)).toNat % 16 ∧
      (t.getX 2).toNat = (s.byte (off + 2)).toNat / 32 % 2 ∧ ∀ r : Reg, 3 ≤ r.val → t.getX r = s.getX r) ∧
  (∀ (off : Nat) (s : State), off + 1 ≤ 1024 →
    ∃ t, exec (.eesUnpack off) s = .next t ∧ t = { s with x := t.x, status := Safety.done s.status } ∧
      (t.getX 0).toNat = (s.byte off).toNat / 128 ∧ ∀ r : Reg, r ≠ 0 → t.getX r = s.getX r)

/-! ### Cycle frames and the latch -/

/-- CYC.PACK in range (R200 to R202, R213): with operands it accepts, the reset request clears the latch first, then the
mode byte and the eight bytes of the frame, which is a ChecksumFrame, FRMLEN = 8, OK not written; with an operand that
does not fit it is refused with E_FIELD, and then not even a reset request clears the latch. -/
def Obligations.CycleCommandIsBuiltOrRefused : Prop :=
  ∀ (off : Nat) (s : State), off + 8 ≤ 1024 →
    (¬ Safety.Packable s → exec (.cycPack off) s = .next (Safety.refused s 5 (encode (.cycPack off)))) ∧
    (Safety.Packable s →
      ∃ t, exec (.cycPack off) s = .next t ∧
        (let halt : Bool := (s.getX 3).toNat % 2 == 1
         let reset : Bool := (s.getX 3).toNat / 2 % 2 == 1
         t = { s with
           buf := t.buf
           frmLen := 8
           status := { s.status with
             lastErr := 0
             errLatch := s.status.errLatch && !reset
             dropFail := s.status.dropFail && !reset
             jump := s.status.jump && !reset } } ∧
         (t.byte off).toNat = (if s.getX 0 = 1 ∧ halt = false ∧ t.status.errLatch = false then 3 else 0) +
           (if reset then 16 else 0)) ∧
        (t.byte (off + 1)).toNat = (s.getX 2).toNat ∧ Safety.u16 t (off + 2) = 0 ∧
        Safety.signed 16 (Safety.u16 t (off + 4)) = (s.getX 1).toInt ∧ t.byte (off + 6) = 0 ∧
        t.byte (off + 7) = rotr8 (cks (Safety.buf t off 7)) ∧ cks (Safety.buf t off 8) = 0 ∧
        ∀ a, (a < off ∨ off + 8 ≤ a) → t.byte a = s.byte a)

/-- CYC.UNPACK in range (R203, R205, R208): with a bad checksum only CKACC, OK and LASTERR change; otherwise all sixteen
X registers take the fields of the frame and the maxima are updated. -/
def Obligations.CycleStatusIsUnpacked : Prop :=
  ∀ (off : Nat) (s : State), off + 44 ≤ 1024 →
    (cks (Safety.buf s off 44) ≠ 0 →
      exec (.cycUnpack off) s =
        .next { s with ckAcc := cks (Safety.buf s off 44), status := Safety.verified s.status 10 }) ∧
    (cks (Safety.buf s off 44) = 0 →
      ∃ t, exec (.cycUnpack off) s = .next t ∧
        t = { s with x := t.x, ckAcc := 0, maxBt := t.maxBt, maxBrt := t.maxBrt,
                     status := Safety.verified s.status 0 } ∧
        (t.getX 0).toNat = Safety.u32 s (off + 8) ∧ (t.getX 1).toNat = Safety.u32 s (off + 12) ∧
        (t.getX 2).toNat = (s.byte off).toNat ∧
        (t.getX 3).toInt = Safety.signed 16 (Safety.u16 s (off + 6)) ∧
        (t.getX 4).toInt = Safety.signed 16 (Safety.u16 s (off + 4)) ∧
        (t.getX 5).toNat = Safety.u16 s (off + 20) ∧ (t.getX 6).toNat = (s.byte (off + 23)).toNat ∧
        (t.getX 7).toNat = Safety.u32 s (off + 24) ∧ (t.getX 8).toNat = Safety.u32 s (off + 28) ∧
        (t.getX 9).toNat = Safety.u16 s (off + 32) ∧ (t.getX 10).toNat = Safety.u16 s (off + 34) ∧
        (t.getX 11).toNat = Safety.u16 s (off + 36) ∧
        (t.getX 12).toInt = Safety.signed 16 (Safety.u16 s (off + 38)) ∧
        (t.getX 13).toNat = Safety.u16 s (off + 40) ∧ (t.getX 14).toNat = (s.byte (off + 1)).toNat ∧
        (t.getX 15).toNat = Safety.u32 s (off + 16) ∧
        t.maxBt.toNat = max s.maxBt.toNat (Safety.u16 s (off + 32)) ∧
        t.maxBrt.toNat = max s.maxBrt.toNat (Safety.u16 s (off + 34)))

/-- LATCH.SET (R214): encoding, reserved words, effect, idempotence. -/
def Obligations.LatchSet : Prop :=
  decode 0x3A000000 = .ok .latchSet ∧
  (∀ w : Word, 0x3A000000 < w.toNat → w.toNat < 0x3B000000 → Safety.WordRefused w 2) ∧
  ∀ s : State, ∃ t, exec .latchSet s = .next t ∧
    t = { s with status := { s.status with errLatch := true, lastErr := 0 } } ∧ exec .latchSet t = .next t

/-! ### Counter arithmetic -/

/-- DIFF32 and DIFF8 (R221 to R223): the difference of the two readings modulo 2^32, or of their low bytes modulo 256 and
zero-extended; WRAP when the subtraction borrowed, NEG when the difference is negative as a signed number. The operands
are those before X[rd] is written, so rd may be ra or rb. -/
def Obligations.DeltaResults : Prop :=
  ∀ (rd ra rb : Reg) (s : State) (i : Instr) (m : Nat),
    (i, m) ∈ [(Instr.diff32 rd ra rb, 2 ^ 32), (Instr.diff8 rd ra rb, 2 ^ 8)] →
    ∃ t, exec i s = .next t ∧
      (let new := (s.getX ra).toNat % m
       let old := (s.getX rb).toNat % m
       let d := (new + m - old) % m
       t = { s with
         x := t.x
         status := { s.status with lastErr := 0, wrap := decide (new < old), neg := decide (m / 2 ≤ d) } } ∧
       (t.getX rd).toNat = d ∧ ∀ r, r ≠ rd → t.getX r = s.getX r)

/-- Wraparound is harmless (R9, R220, R224): if the two registers hold the counts `new` and `old` modulo 2^32 and the true
distance lies in -2^31 .. 2^31-1, DIFF32's result read as signed is that distance. -/
def Obligations.SignedDeltaIsTheTrueDistance : Prop :=
  ∀ (rd ra rb : Reg) (s : State) (new old : Int),
    s.getX ra = BitVec.ofInt 32 new → s.getX rb = BitVec.ofInt 32 old →
    -2 ^ 31 ≤ new - old → new - old < 2 ^ 31 →
    ∃ t, exec (.diff32 rd ra rb) s = .next t ∧ (t.getX rd).toInt = new - old

/-- DUR.ACC (R225): the delta is added as a signed number, modulo 2^64. -/
def Obligations.DurationAccumulates : Prop :=
  ∀ (ra : Reg) (s : State),
    ∃ t, exec (.durAcc ra) s = .next t ∧ t = { s with dur := t.dur, status := Safety.done s.status } ∧
      t.dur.toInt = Int.bmod (s.dur.toInt + (s.getX ra).toInt) (2 ^ 64)

/-- TS.INIT (R229) and TS.STEP (R231 to R235): the duplicate test against the two timestamps before the step, the
counters, the shift on every step, the drop failure and, only without it, the jump test. -/
def Obligations.TimestampMonitor : Prop :=
  (∀ (ra : Reg) (s : State), exec (.tsInit ra) s =
    .next { s with ts1 := s.getX ra, ts2 := s.getX ra, consec := 0, status := Safety.done s.status }) ∧
  (∀ (rd ra : Reg) (s : State),
    ∃ t, exec (.tsStep rd ra) s = .next t ∧
      (let now := s.getX ra
       let dup := now = s.ts1 ∨ now = s.ts2
       let d := (now.toNat + 2 ^ 32 - s.ts1.toNat) % 2 ^ 32
       let consec := if dup then s.consec + 1 else 0
       let fails : Bool := decide (10 < consec.toNat)
       t = { s with
         x := t.x
         ts1 := now
         ts2 := s.ts1
         consec := consec
         drops := if dup then s.drops + 1 else s.drops
         maxConsec := if dup ∧ s.maxConsec.toNat < consec.toNat then consec else s.maxConsec
         status := { s.status with
           dup := decide dup
           wrap := decide (now.toNat < s.ts1.toNat)
           neg := decide (2 ^ 31 ≤ d)
           ok := !fails
           lastErr := if fails then 13 else 0
           dropFail := s.status.dropFail || fails
           errLatch := s.status.errLatch || fails
           jump := s.status.jump || (!fails && decide (10000000 < d)) } } ∧
       (t.getX rd).toNat = d ∧ ∀ r, r ≠ rd → t.getX r = s.getX r))

/-- The drop failure comes on the eleventh frame in a row with the timestamp already seen, not earlier, and on every
further one; the next frame with another timestamp succeeds, ends the streak and leaves the latch set (R234). -/
def Obligations.EleventhDuplicateFails : Prop :=
  ∀ (rd ra : Reg) (ts : Word) (s : State) (n : Nat),
    s.ts1 = ts → s.consec = 0 → 1 ≤ n → n < 2 ^ 32 →
    ∃ t, Safety.feed rd ra ts n s = .next t ∧ t.consec.toNat = n ∧ t.status.dup = true ∧
      (n ≤ 10 → t.status.ok = true ∧ t.status.lastErr = 0 ∧ t.status.errLatch = s.status.errLatch) ∧
      (11 ≤ n → t.status.ok = false ∧ t.status.lastErr = 13 ∧ t.status.dropFail = true ∧ t.status.errLatch = true ∧
        ∀ next : Word, next ≠ ts → ∃ u, exec (.tsStep rd ra) (t.setX ra next) = .next u ∧
          u.status.ok = true ∧ u.status.lastErr = 0 ∧ u.consec = 0 ∧ u.status.dropFail = true ∧
          u.status.errLatch = true)

/-- ACC8 and SNAP8 (R238, R240): a channel below 16 takes the new reading, ACC8 also adds the forward distance modulo 256
to its total and writes WRAP; any other channel number is refused with E_CHAN. -/
def Obligations.CounterChannels : Prop :=
  (∀ (ra : Reg) (ch : Fin 16) (s : State),
    (∃ t, exec (.acc8 ra ch.val) s = .next t ∧
      (let n := (s.getX ra).toNat % 256
       let old := s.snap[ch].toNat
       t = { s with total := t.total, snap := t.snap, status := { s.status with
         lastErr := 0, wrap := decide (n < old) } } ∧
       t.snap[ch].toNat = n ∧ t.total[ch].toNat = (s.total[ch].toNat + (n + 256 - old) % 256) % 2 ^ 32 ∧
       ∀ c : Fin 16, c ≠ ch → t.snap[c] = s.snap[c] ∧ t.total[c] = s.total[c])) ∧
    ∃ t, exec (.snap8 ra ch.val) s = .next t ∧ t = { s with snap := t.snap, status := Safety.done s.status } ∧
      t.snap[ch].toNat = (s.getX ra).toNat % 256 ∧ ∀ c : Fin 16, c ≠ ch → t.snap[c] = s.snap[c]) ∧
  (∀ (ra : Reg) (ch : Nat) (s : State), 16 ≤ ch →
    exec (.acc8 ra ch) s = .next (Safety.refused s 4 (encode (.acc8 ra ch))) ∧
    exec (.snap8 ra ch) s = .next (Safety.refused s 4 (encode (.snap8 ra ch))))

/-- DIAG.RESET (R242): encoding, reserved words, what it clears and that nothing else but LASTERR changes. -/
def Obligations.DiagnosticsReset : Prop :=
  decode 0x58000000 = .ok .diagReset ∧
  (∀ w : Word, 0x58000000 < w.toNat → w.toNat < 0x59000000 → Safety.WordRefused w 2) ∧
  ∀ s : State, ∃ t, exec .diagReset s = .next t ∧
    t = { s with total := t.total, drops := 0, maxConsec := 0, maxBt := 0, maxBrt := 0,
                 status := Safety.done s.status } ∧
    ∀ ch : Fin 16, t.total[ch] = 0

/-! ### Field access -/

/-- PUT8, PUT16 and PUT32 in range (R251 to R253): byte k of the field is bits 8k+7..8k of the register; no other byte
and nothing but LASTERR changes. -/
def Obligations.FieldStores : Prop :=
  ∀ (r : Reg) (off n : Nat) (i : Instr) (s : State),
    (i, n) ∈ [(Instr.put8 r off, 1), (Instr.put16 r off, 2), (Instr.put32 r off, 4)] → off + n ≤ 1024 →
    ∃ t, exec i s = .next t ∧ t = { s with buf := t.buf, status := Safety.done s.status } ∧
      ∀ a, t.byte a = if off ≤ a ∧ a < off + n then (s.getX r).extractLsb' (8 * (a - off)) 8 else s.byte a

/-- GET8U, GET8S, GET16U, GET16S and GET32 in range (R254 to R258): the little-endian field, read as unsigned or as
signed, is the register's new value; no other register and nothing but LASTERR changes. -/
def Obligations.FieldLoads : Prop :=
  ∀ (r : Reg) (off n v : Nat) (sign : Bool) (i : Instr) (s : State),
    (i, n, sign, v) ∈ [(Instr.get8u r off, 1, false, (s.byte off).toNat), (Instr.get8s r off, 1, true, (s.byte off).toNat),
      (Instr.get16u r off, 2, false, Safety.u16 s off), (Instr.get16s r off, 2, true, Safety.u16 s off),
      (Instr.get32 r off, 4, false, Safety.u32 s off)] → off + n ≤ 1024 →
    ∃ t, exec i s = .next t ∧ t = { s with x := t.x, status := Safety.done s.status } ∧
      (if sign then (t.getX r).toInt = Safety.signed (8 * n) v else (t.getX r).toNat = v) ∧
      ∀ q, q ≠ r → t.getX q = s.getX q

/-- PUT and GET of the same width at the same offset are inverse on the stored bits (R258). -/
def Obligations.StoredFieldLoadsBack : Prop :=
  ∀ (r q : Reg) (off : Nat) (s : State),
    (off + 4 ≤ 1024 → ∃ t u, exec (.put32 r off) s = .next t ∧ exec (.get32 q off) t = .next u ∧
      u.getX q = s.getX r) ∧
    (off + 2 ≤ 1024 → ∃ t u v, exec (.put16 r off) s = .next t ∧ exec (.get16u q off) t = .next u ∧
      exec (.get16s q off) t = .next v ∧ (u.getX q).toNat = (s.getX r).toNat % 2 ^ 16 ∧
      (v.getX q).toInt = Int.bmod (s.getX r).toInt (2 ^ 16)) ∧
    (off + 1 ≤ 1024 → ∃ t u v, exec (.put8 r off) s = .next t ∧ exec (.get8u q off) t = .next u ∧
      exec (.get8s q off) t = .next v ∧ (u.getX q).toNat = (s.getX r).toNat % 2 ^ 8 ∧
      (v.getX q).toInt = Int.bmod (s.getX r).toInt (2 ^ 8))

/-- FILL.Z and FILL.F in range (R259, R260): every byte of the range is 0x00 or 0xFF, no other byte and nothing but
LASTERR changes. -/
def Obligations.FillResults : Prop :=
  ∀ (off len : Nat) (i : Instr) (b : Byte) (s : State),
    (i, b) ∈ [(Instr.fillZ off len, 0x00), (Instr.fillF off len, 0xFF)] → off + len ≤ 1024 →
    ∃ t, exec i s = .next t ∧ t = { s with buf := t.buf, status := Safety.done s.status } ∧
      ∀ a, t.byte a = if off ≤ a ∧ a < off + len then b else s.byte a
end

