-- ==== Sys2Proof/Laws/Memory.lean ====
section
/-! SUPPORT. The laws of the frame buffer's memory: read after write, and the canonical form. -/

namespace Sys2Proof.Machine

theorem Memory.lookup_insert (m : List Host.Cell) (a k : Nat) (b : Byte) :
    Memory.lookup (Memory.insert m a b) k = if k = a then some b else Memory.lookup m k := by
  induction m with
  | nil => simp [Memory.insert, Memory.lookup, eq_comm]
  | cons c m ih =>
    obtain ⟨j, d⟩ := c
    simp only [Memory.insert]
    split
    · simp [Memory.lookup, eq_comm]
    · split
      · rename_i h
        subst h
        simp only [Memory.lookup, eq_comm (a := a)]
        split <;> rfl
      · simp only [Memory.lookup, ih]
        split
        · rename_i h
          subst h
          simp [Ne.symm ‹_›]
        · rfl

theorem Memory.lookup_insertAll (m : List Host.Cell) (a k : Nat) (bs : List Byte) :
    Memory.lookup (Memory.insertAll m a bs) k =
      if a ≤ k ∧ k < a + bs.length then bs[k - a]? else Memory.lookup m k := by
  induction bs generalizing m a with
  | nil => simp [Memory.insertAll]
  | cons b bs ih =>
    rw [Memory.insertAll, ih, Memory.lookup_insert]
    simp only [List.length_cons]
    by_cases h : k = a
    · subst h
      simp
    · by_cases h2 : a + 1 ≤ k ∧ k < a + 1 + bs.length
      · have e : k - a = (k - (a + 1)) + 1 := by omega
        rw [if_pos h2, if_pos (by omega), e, List.getElem?_cons_succ]
      · rw [if_neg h2, if_neg h, if_neg (by omega)]

/-- A stored byte keeps the canonical form. -/
theorem Memory.risingFrom_insert (m : List Host.Cell) (lo a : Nat) (b : Byte)
    (h : Memory.risingFrom lo m = true) (h1 : lo ≤ a) (h2 : a < Config.bufSize) :
    Memory.risingFrom lo (Memory.insert m a b) = true := by
  induction m generalizing lo with
  | nil => simp [Memory.insert, Memory.risingFrom, h1, h2]
  | cons c m ih =>
    obtain ⟨k, d⟩ := c
    simp only [Memory.risingFrom, Bool.and_eq_true, decide_eq_true_eq] at h
    obtain ⟨⟨h3, h4⟩, h5⟩ := h
    simp only [Memory.insert]
    split
    · simp only [Memory.risingFrom, Bool.and_eq_true, decide_eq_true_eq]
      exact ⟨⟨h1, h2⟩, ⟨by omega, h4⟩, h5⟩
    · split
      · rename_i h6
        subst h6
        simp only [Memory.risingFrom, Bool.and_eq_true, decide_eq_true_eq]
        exact ⟨⟨h1, h2⟩, h5⟩
      · simp only [Memory.risingFrom, Bool.and_eq_true, decide_eq_true_eq]
        exact ⟨⟨h3, h4⟩, ih _ h5 (by omega)⟩

theorem Memory.wf_insert (m : List Host.Cell) (a : Nat) (b : Byte)
    (h : Memory.wf m = true) (ha : a < Config.bufSize) : Memory.wf (Memory.insert m a b) = true :=
  Memory.risingFrom_insert m 0 a b h (Nat.zero_le _) ha

/-- A stored byte sequence inside BUF keeps the canonical form. -/
theorem Memory.wf_insertAll (m : List Host.Cell) (a : Nat) (bs : List Byte)
    (h : Memory.wf m = true) (ha : a + bs.length ≤ Config.bufSize) :
    Memory.wf (Memory.insertAll m a bs) = true := by
  induction bs generalizing m a with
  | nil => exact h
  | cons b bs ih =>
    simp only [List.length_cons] at ha
    exact ih _ _ (Memory.wf_insert m a b h (by omega)) (by omega)

/-- Reset's memory is in canonical form. -/
theorem Memory.wf_reset : Memory.wf State.reset.buf = true := rfl

theorem Memory.lookup_eq_none_of_lt (m : List Host.Cell) (lo k : Nat)
    (h : Memory.risingFrom lo m = true) (hk : k < lo) : Memory.lookup m k = none := by
  induction m generalizing lo with
  | nil => rfl
  | cons c m ih =>
    obtain ⟨j, d⟩ := c
    simp only [Memory.risingFrom, Bool.and_eq_true, decide_eq_true_eq] at h
    rw [Memory.lookup, if_neg (by omega)]
    exact ih _ h.2 (by omega)

/-- In canonical form, memories that store the same bytes are equal data. -/
theorem Memory.ext_of_lookup (m n : List Host.Cell) (lo : Nat) (hm : Memory.risingFrom lo m = true)
    (hn : Memory.risingFrom lo n = true) (h : ∀ k, Memory.lookup m k = Memory.lookup n k) : m = n := by
  induction m generalizing lo n with
  | nil =>
    cases n with
    | nil => rfl
    | cons c n =>
      have := h c.1
      simp [Memory.lookup] at this
  | cons c m ih =>
    obtain ⟨j, d⟩ := c
    cases n with
    | nil =>
      have := h j
      simp [Memory.lookup] at this
    | cons e n =>
      obtain ⟨i, f⟩ := e
      simp only [Memory.risingFrom, Bool.and_eq_true, decide_eq_true_eq] at hm hn
      have hji : j = i := by
        rcases Nat.lt_trichotomy j i with hlt | heq | hgt
        · have := h j
          rw [Memory.lookup, if_pos rfl, Memory.lookup, if_neg (by omega),
            Memory.lookup_eq_none_of_lt n (i + 1) j hn.2 (by omega)] at this
          cases this
        · exact heq
        · have := h i
          rw [Memory.lookup, if_neg (by omega), Memory.lookup, if_pos rfl,
            Memory.lookup_eq_none_of_lt m (j + 1) i hm.2 (by omega)] at this
          cases this
      subst hji
      have hd : d = f := by
        have := h j
        simpa [Memory.lookup] using this
      subst hd
      have : m = n := by
        refine ih n (j + 1) hm.2 hn.2 fun k => ?_
        have hk := h k
        simp only [Memory.lookup] at hk
        by_cases hjk : j = k
        · subst hjk
          rw [Memory.lookup_eq_none_of_lt m (j + 1) j hm.2 (by omega),
            Memory.lookup_eq_none_of_lt n (j + 1) j hn.2 (by omega)]
        · simpa [hjk] using hk
      rw [this]

end Sys2Proof.Machine
end

