-- ==== Sys2Proof/Laws/Operands.lean ====
section
/-! SUPPORT. What the parameters of R5 are worth in numbers, and one lemma per operand form: register and channel
numbers, the sub-fields of an X register, the extensions, the host port's view. -/

namespace Sys2Proof

theorem Reg.val_lt (r : Reg) : r.val < 16 := r.isLt

theorem Chan.val_lt (c : Chan) : c.val < 16 := c.isLt

theorem XWord.toNat_lt (v : XWord) : v.toNat < 2 ^ 32 := v.isLt

/-- A register field is the plain 4-bit field (R91, R92). -/
theorem regField_val (w : Word) (lo : Nat) : (regField w lo).val = field w (lo + 3) lo := by
  simp [regField, field]

namespace Machine

@[simp] theorem low32_eq (v : XWord) : low32 v = v := by
  simp [low32, BitVec.extractLsb'_eq_self]

@[simp] theorem zext_word (v : Word) : zext v = v := BitVec.setWidth_eq v

@[simp] theorem onPort_word (v : Word) : onPort v = v := BitVec.setWidth_eq v

@[simp] theorem low8_toNat (v : XWord) : (low8 v).toNat = v.toNat % 256 := by
  simp [low8, BitVec.extractLsb'_toNat]

@[simp] theorem low16_toNat (v : XWord) : (low16 v).toNat = v.toNat % 65536 := by
  simp [low16, BitVec.extractLsb'_toNat]

/-- Zero-extension keeps the unsigned value (R7). -/
theorem zext_toNat {n : Nat} (v : BitVec n) (h : n ≤ 32) : (zext v).toNat = v.toNat :=
  BitVec.toNat_setWidth_of_le h

/-- Sign-extension keeps the signed value (R7). -/
theorem sext_toInt {n : Nat} (v : BitVec n) (h : n ≤ 32) : (sext v).toInt = v.toInt :=
  BitVec.toInt_signExtend_of_le h

/-- The host reads a register's unsigned value (R27). -/
theorem onPort_toNat {n : Nat} (v : BitVec n) (h : n ≤ 32) : (onPort v).toNat = v.toNat :=
  BitVec.toNat_setWidth_of_le h

@[simp] theorem zextBit_toNat (b : Bool) : (zextBit b).toNat = b.toNat := by
  cases b <;> rfl

/-- A channel number names a channel exactly when it is below NCH (R92, R238). -/
theorem channel?_eq_some {ch : Nat} {c : Chan} : channel? ch = some c ↔ ch = c.val := by
  unfold channel?
  split
  · simp only [Option.some.injEq, Fin.ext_iff]
  · have := c.isLt; constructor
    · exact nofun
    · omega

theorem channel?_eq_none {ch : Nat} : channel? ch = none ↔ 16 ≤ ch := by
  simp [channel?]

end Machine

end Sys2Proof
end

