-- ==== Sys2Proof/Laws/State.lean ====
section
/-! SUPPORT. One lemma per field of State per named update, so that no later proof unfolds a record update, and the
reads of the frame buffer and of the X registers after an update that does not concern them. -/

namespace Sys2Proof.Machine

variable (s : State)

/-! ### setByte -/

@[simp] theorem State.setByte_x (a : Nat) (b : Byte) : (s.setByte a b).x = s.x := rfl
@[simp] theorem State.setByte_status (a : Nat) (b : Byte) : (s.setByte a b).status = s.status := rfl
@[simp] theorem State.setByte_errCmd (a : Nat) (b : Byte) : (s.setByte a b).errCmd = s.errCmd := rfl
@[simp] theorem State.setByte_ckAcc (a : Nat) (b : Byte) : (s.setByte a b).ckAcc = s.ckAcc := rfl
@[simp] theorem State.setByte_crcAcc (a : Nat) (b : Byte) : (s.setByte a b).crcAcc = s.crcAcc := rfl
@[simp] theorem State.setByte_frmLen (a : Nat) (b : Byte) : (s.setByte a b).frmLen = s.frmLen := rfl
@[simp] theorem State.setByte_dur (a : Nat) (b : Byte) : (s.setByte a b).dur = s.dur := rfl
@[simp] theorem State.setByte_ts1 (a : Nat) (b : Byte) : (s.setByte a b).ts1 = s.ts1 := rfl
@[simp] theorem State.setByte_ts2 (a : Nat) (b : Byte) : (s.setByte a b).ts2 = s.ts2 := rfl
@[simp] theorem State.setByte_drops (a : Nat) (b : Byte) : (s.setByte a b).drops = s.drops := rfl
@[simp] theorem State.setByte_consec (a : Nat) (b : Byte) : (s.setByte a b).consec = s.consec := rfl
@[simp] theorem State.setByte_maxConsec (a : Nat) (b : Byte) : (s.setByte a b).maxConsec = s.maxConsec := rfl
@[simp] theorem State.setByte_maxBt (a : Nat) (b : Byte) : (s.setByte a b).maxBt = s.maxBt := rfl
@[simp] theorem State.setByte_maxBrt (a : Nat) (b : Byte) : (s.setByte a b).maxBrt = s.maxBrt := rfl
@[simp] theorem State.setByte_total (a : Nat) (b : Byte) : (s.setByte a b).total = s.total := rfl
@[simp] theorem State.setByte_snap (a : Nat) (b : Byte) : (s.setByte a b).snap = s.snap := rfl
@[simp] theorem State.setByte_buf (a : Nat) (b : Byte) : (s.setByte a b).buf = Memory.insert s.buf a b := rfl
@[simp] theorem State.setByte_resets (a : Nat) (b : Byte) : (s.setByte a b).resets = s.resets := rfl
@[simp] theorem State.setByte_pending (a : Nat) (b : Byte) : (s.setByte a b).pending = s.pending := rfl
@[simp] theorem State.setByte_answer (a : Nat) (b : Byte) : (s.setByte a b).answer = s.answer := rfl
@[simp] theorem State.setByte_getX (a : Nat) (b : Byte) (r' : Reg) : (s.setByte a b).getX r' = s.getX r' := rfl

/-! ### store -/

@[simp] theorem State.store_x (a : Nat) (bs : List Byte) : (s.store a bs).x = s.x := rfl
@[simp] theorem State.store_status (a : Nat) (bs : List Byte) : (s.store a bs).status = s.status := rfl
@[simp] theorem State.store_errCmd (a : Nat) (bs : List Byte) : (s.store a bs).errCmd = s.errCmd := rfl
@[simp] theorem State.store_ckAcc (a : Nat) (bs : List Byte) : (s.store a bs).ckAcc = s.ckAcc := rfl
@[simp] theorem State.store_crcAcc (a : Nat) (bs : List Byte) : (s.store a bs).crcAcc = s.crcAcc := rfl
@[simp] theorem State.store_frmLen (a : Nat) (bs : List Byte) : (s.store a bs).frmLen = s.frmLen := rfl
@[simp] theorem State.store_dur (a : Nat) (bs : List Byte) : (s.store a bs).dur = s.dur := rfl
@[simp] theorem State.store_ts1 (a : Nat) (bs : List Byte) : (s.store a bs).ts1 = s.ts1 := rfl
@[simp] theorem State.store_ts2 (a : Nat) (bs : List Byte) : (s.store a bs).ts2 = s.ts2 := rfl
@[simp] theorem State.store_drops (a : Nat) (bs : List Byte) : (s.store a bs).drops = s.drops := rfl
@[simp] theorem State.store_consec (a : Nat) (bs : List Byte) : (s.store a bs).consec = s.consec := rfl
@[simp] theorem State.store_maxConsec (a : Nat) (bs : List Byte) : (s.store a bs).maxConsec = s.maxConsec := rfl
@[simp] theorem State.store_maxBt (a : Nat) (bs : List Byte) : (s.store a bs).maxBt = s.maxBt := rfl
@[simp] theorem State.store_maxBrt (a : Nat) (bs : List Byte) : (s.store a bs).maxBrt = s.maxBrt := rfl
@[simp] theorem State.store_total (a : Nat) (bs : List Byte) : (s.store a bs).total = s.total := rfl
@[simp] theorem State.store_snap (a : Nat) (bs : List Byte) : (s.store a bs).snap = s.snap := rfl
@[simp] theorem State.store_buf (a : Nat) (bs : List Byte) : (s.store a bs).buf = Memory.insertAll s.buf a bs := rfl
@[simp] theorem State.store_resets (a : Nat) (bs : List Byte) : (s.store a bs).resets = s.resets := rfl
@[simp] theorem State.store_pending (a : Nat) (bs : List Byte) : (s.store a bs).pending = s.pending := rfl
@[simp] theorem State.store_answer (a : Nat) (bs : List Byte) : (s.store a bs).answer = s.answer := rfl
@[simp] theorem State.store_getX (a : Nat) (bs : List Byte) (r' : Reg) : (s.store a bs).getX r' = s.getX r' := rfl

/-! ### write16 -/

@[simp] theorem State.write16_x (a : Nat) (v : Half) : (s.write16 a v).x = s.x := rfl
@[simp] theorem State.write16_status (a : Nat) (v : Half) : (s.write16 a v).status = s.status := rfl
@[simp] theorem State.write16_errCmd (a : Nat) (v : Half) : (s.write16 a v).errCmd = s.errCmd := rfl
@[simp] theorem State.write16_ckAcc (a : Nat) (v : Half) : (s.write16 a v).ckAcc = s.ckAcc := rfl
@[simp] theorem State.write16_crcAcc (a : Nat) (v : Half) : (s.write16 a v).crcAcc = s.crcAcc := rfl
@[simp] theorem State.write16_frmLen (a : Nat) (v : Half) : (s.write16 a v).frmLen = s.frmLen := rfl
@[simp] theorem State.write16_dur (a : Nat) (v : Half) : (s.write16 a v).dur = s.dur := rfl
@[simp] theorem State.write16_ts1 (a : Nat) (v : Half) : (s.write16 a v).ts1 = s.ts1 := rfl
@[simp] theorem State.write16_ts2 (a : Nat) (v : Half) : (s.write16 a v).ts2 = s.ts2 := rfl
@[simp] theorem State.write16_drops (a : Nat) (v : Half) : (s.write16 a v).drops = s.drops := rfl
@[simp] theorem State.write16_consec (a : Nat) (v : Half) : (s.write16 a v).consec = s.consec := rfl
@[simp] theorem State.write16_maxConsec (a : Nat) (v : Half) : (s.write16 a v).maxConsec = s.maxConsec := rfl
@[simp] theorem State.write16_maxBt (a : Nat) (v : Half) : (s.write16 a v).maxBt = s.maxBt := rfl
@[simp] theorem State.write16_maxBrt (a : Nat) (v : Half) : (s.write16 a v).maxBrt = s.maxBrt := rfl
@[simp] theorem State.write16_total (a : Nat) (v : Half) : (s.write16 a v).total = s.total := rfl
@[simp] theorem State.write16_snap (a : Nat) (v : Half) : (s.write16 a v).snap = s.snap := rfl
@[simp] theorem State.write16_buf (a : Nat) (v : Half) : (s.write16 a v).buf = Memory.insertAll s.buf a (le16 v) := rfl
@[simp] theorem State.write16_resets (a : Nat) (v : Half) : (s.write16 a v).resets = s.resets := rfl
@[simp] theorem State.write16_pending (a : Nat) (v : Half) : (s.write16 a v).pending = s.pending := rfl
@[simp] theorem State.write16_answer (a : Nat) (v : Half) : (s.write16 a v).answer = s.answer := rfl
@[simp] theorem State.write16_getX (a : Nat) (v : Half) (r' : Reg) : (s.write16 a v).getX r' = s.getX r' := rfl

/-! ### write32 -/

@[simp] theorem State.write32_x (a : Nat) (v : Word) : (s.write32 a v).x = s.x := rfl
@[simp] theorem State.write32_status (a : Nat) (v : Word) : (s.write32 a v).status = s.status := rfl
@[simp] theorem State.write32_errCmd (a : Nat) (v : Word) : (s.write32 a v).errCmd = s.errCmd := rfl
@[simp] theorem State.write32_ckAcc (a : Nat) (v : Word) : (s.write32 a v).ckAcc = s.ckAcc := rfl
@[simp] theorem State.write32_crcAcc (a : Nat) (v : Word) : (s.write32 a v).crcAcc = s.crcAcc := rfl
@[simp] theorem State.write32_frmLen (a : Nat) (v : Word) : (s.write32 a v).frmLen = s.frmLen := rfl
@[simp] theorem State.write32_dur (a : Nat) (v : Word) : (s.write32 a v).dur = s.dur := rfl
@[simp] theorem State.write32_ts1 (a : Nat) (v : Word) : (s.write32 a v).ts1 = s.ts1 := rfl
@[simp] theorem State.write32_ts2 (a : Nat) (v : Word) : (s.write32 a v).ts2 = s.ts2 := rfl
@[simp] theorem State.write32_drops (a : Nat) (v : Word) : (s.write32 a v).drops = s.drops := rfl
@[simp] theorem State.write32_consec (a : Nat) (v : Word) : (s.write32 a v).consec = s.consec := rfl
@[simp] theorem State.write32_maxConsec (a : Nat) (v : Word) : (s.write32 a v).maxConsec = s.maxConsec := rfl
@[simp] theorem State.write32_maxBt (a : Nat) (v : Word) : (s.write32 a v).maxBt = s.maxBt := rfl
@[simp] theorem State.write32_maxBrt (a : Nat) (v : Word) : (s.write32 a v).maxBrt = s.maxBrt := rfl
@[simp] theorem State.write32_total (a : Nat) (v : Word) : (s.write32 a v).total = s.total := rfl
@[simp] theorem State.write32_snap (a : Nat) (v : Word) : (s.write32 a v).snap = s.snap := rfl
@[simp] theorem State.write32_buf (a : Nat) (v : Word) : (s.write32 a v).buf = Memory.insertAll s.buf a (le32 v) := rfl
@[simp] theorem State.write32_resets (a : Nat) (v : Word) : (s.write32 a v).resets = s.resets := rfl
@[simp] theorem State.write32_pending (a : Nat) (v : Word) : (s.write32 a v).pending = s.pending := rfl
@[simp] theorem State.write32_answer (a : Nat) (v : Word) : (s.write32 a v).answer = s.answer := rfl
@[simp] theorem State.write32_getX (a : Nat) (v : Word) (r' : Reg) : (s.write32 a v).getX r' = s.getX r' := rfl

/-! ### setX -/

@[simp] theorem State.setX_x (r : Reg) (v : XWord) : (s.setX r v).x = s.x.set r v := rfl
@[simp] theorem State.setX_status (r : Reg) (v : XWord) : (s.setX r v).status = s.status := rfl
@[simp] theorem State.setX_errCmd (r : Reg) (v : XWord) : (s.setX r v).errCmd = s.errCmd := rfl
@[simp] theorem State.setX_ckAcc (r : Reg) (v : XWord) : (s.setX r v).ckAcc = s.ckAcc := rfl
@[simp] theorem State.setX_crcAcc (r : Reg) (v : XWord) : (s.setX r v).crcAcc = s.crcAcc := rfl
@[simp] theorem State.setX_frmLen (r : Reg) (v : XWord) : (s.setX r v).frmLen = s.frmLen := rfl
@[simp] theorem State.setX_dur (r : Reg) (v : XWord) : (s.setX r v).dur = s.dur := rfl
@[simp] theorem State.setX_ts1 (r : Reg) (v : XWord) : (s.setX r v).ts1 = s.ts1 := rfl
@[simp] theorem State.setX_ts2 (r : Reg) (v : XWord) : (s.setX r v).ts2 = s.ts2 := rfl
@[simp] theorem State.setX_drops (r : Reg) (v : XWord) : (s.setX r v).drops = s.drops := rfl
@[simp] theorem State.setX_consec (r : Reg) (v : XWord) : (s.setX r v).consec = s.consec := rfl
@[simp] theorem State.setX_maxConsec (r : Reg) (v : XWord) : (s.setX r v).maxConsec = s.maxConsec := rfl
@[simp] theorem State.setX_maxBt (r : Reg) (v : XWord) : (s.setX r v).maxBt = s.maxBt := rfl
@[simp] theorem State.setX_maxBrt (r : Reg) (v : XWord) : (s.setX r v).maxBrt = s.maxBrt := rfl
@[simp] theorem State.setX_total (r : Reg) (v : XWord) : (s.setX r v).total = s.total := rfl
@[simp] theorem State.setX_snap (r : Reg) (v : XWord) : (s.setX r v).snap = s.snap := rfl
@[simp] theorem State.setX_buf (r : Reg) (v : XWord) : (s.setX r v).buf = s.buf := rfl
@[simp] theorem State.setX_resets (r : Reg) (v : XWord) : (s.setX r v).resets = s.resets := rfl
@[simp] theorem State.setX_pending (r : Reg) (v : XWord) : (s.setX r v).pending = s.pending := rfl
@[simp] theorem State.setX_answer (r : Reg) (v : XWord) : (s.setX r v).answer = s.answer := rfl
@[simp] theorem State.setX_byte (r : Reg) (v : XWord) (k : Nat) : (s.setX r v).byte k = s.byte k := rfl
@[simp] theorem State.setX_read16 (r : Reg) (v : XWord) (k : Nat) : (s.setX r v).read16 k = s.read16 k := rfl
@[simp] theorem State.setX_read32 (r : Reg) (v : XWord) (k : Nat) : (s.setX r v).read32 k = s.read32 k := rfl

/-! ### setXs -/

@[simp] theorem State.setXs_status (vs : List XWord) : (s.setXs vs).status = s.status := rfl
@[simp] theorem State.setXs_errCmd (vs : List XWord) : (s.setXs vs).errCmd = s.errCmd := rfl
@[simp] theorem State.setXs_ckAcc (vs : List XWord) : (s.setXs vs).ckAcc = s.ckAcc := rfl
@[simp] theorem State.setXs_crcAcc (vs : List XWord) : (s.setXs vs).crcAcc = s.crcAcc := rfl
@[simp] theorem State.setXs_frmLen (vs : List XWord) : (s.setXs vs).frmLen = s.frmLen := rfl
@[simp] theorem State.setXs_dur (vs : List XWord) : (s.setXs vs).dur = s.dur := rfl
@[simp] theorem State.setXs_ts1 (vs : List XWord) : (s.setXs vs).ts1 = s.ts1 := rfl
@[simp] theorem State.setXs_ts2 (vs : List XWord) : (s.setXs vs).ts2 = s.ts2 := rfl
@[simp] theorem State.setXs_drops (vs : List XWord) : (s.setXs vs).drops = s.drops := rfl
@[simp] theorem State.setXs_consec (vs : List XWord) : (s.setXs vs).consec = s.consec := rfl
@[simp] theorem State.setXs_maxConsec (vs : List XWord) : (s.setXs vs).maxConsec = s.maxConsec := rfl
@[simp] theorem State.setXs_maxBt (vs : List XWord) : (s.setXs vs).maxBt = s.maxBt := rfl
@[simp] theorem State.setXs_maxBrt (vs : List XWord) : (s.setXs vs).maxBrt = s.maxBrt := rfl
@[simp] theorem State.setXs_total (vs : List XWord) : (s.setXs vs).total = s.total := rfl
@[simp] theorem State.setXs_snap (vs : List XWord) : (s.setXs vs).snap = s.snap := rfl
@[simp] theorem State.setXs_buf (vs : List XWord) : (s.setXs vs).buf = s.buf := rfl
@[simp] theorem State.setXs_resets (vs : List XWord) : (s.setXs vs).resets = s.resets := rfl
@[simp] theorem State.setXs_pending (vs : List XWord) : (s.setXs vs).pending = s.pending := rfl
@[simp] theorem State.setXs_answer (vs : List XWord) : (s.setXs vs).answer = s.answer := rfl
@[simp] theorem State.setXs_byte (vs : List XWord) (k : Nat) : (s.setXs vs).byte k = s.byte k := rfl
@[simp] theorem State.setXs_read16 (vs : List XWord) (k : Nat) : (s.setXs vs).read16 k = s.read16 k := rfl
@[simp] theorem State.setXs_read32 (vs : List XWord) (k : Nat) : (s.setXs vs).read32 k = s.read32 k := rfl

/-! ### refuse -/

@[simp] theorem State.refuse_x (e : ECode) (w : Word) : (s.refuse e w).x = s.x := rfl
@[simp] theorem State.refuse_status (e : ECode) (w : Word) : (s.refuse e w).status = { s.status with lastErr := e.code, errSeen := true } := rfl
@[simp] theorem State.refuse_errCmd (e : ECode) (w : Word) : (s.refuse e w).errCmd = w := rfl
@[simp] theorem State.refuse_ckAcc (e : ECode) (w : Word) : (s.refuse e w).ckAcc = s.ckAcc := rfl
@[simp] theorem State.refuse_crcAcc (e : ECode) (w : Word) : (s.refuse e w).crcAcc = s.crcAcc := rfl
@[simp] theorem State.refuse_frmLen (e : ECode) (w : Word) : (s.refuse e w).frmLen = s.frmLen := rfl
@[simp] theorem State.refuse_dur (e : ECode) (w : Word) : (s.refuse e w).dur = s.dur := rfl
@[simp] theorem State.refuse_ts1 (e : ECode) (w : Word) : (s.refuse e w).ts1 = s.ts1 := rfl
@[simp] theorem State.refuse_ts2 (e : ECode) (w : Word) : (s.refuse e w).ts2 = s.ts2 := rfl
@[simp] theorem State.refuse_drops (e : ECode) (w : Word) : (s.refuse e w).drops = s.drops := rfl
@[simp] theorem State.refuse_consec (e : ECode) (w : Word) : (s.refuse e w).consec = s.consec := rfl
@[simp] theorem State.refuse_maxConsec (e : ECode) (w : Word) : (s.refuse e w).maxConsec = s.maxConsec := rfl
@[simp] theorem State.refuse_maxBt (e : ECode) (w : Word) : (s.refuse e w).maxBt = s.maxBt := rfl
@[simp] theorem State.refuse_maxBrt (e : ECode) (w : Word) : (s.refuse e w).maxBrt = s.maxBrt := rfl
@[simp] theorem State.refuse_total (e : ECode) (w : Word) : (s.refuse e w).total = s.total := rfl
@[simp] theorem State.refuse_snap (e : ECode) (w : Word) : (s.refuse e w).snap = s.snap := rfl
@[simp] theorem State.refuse_buf (e : ECode) (w : Word) : (s.refuse e w).buf = s.buf := rfl
@[simp] theorem State.refuse_resets (e : ECode) (w : Word) : (s.refuse e w).resets = s.resets := rfl
@[simp] theorem State.refuse_pending (e : ECode) (w : Word) : (s.refuse e w).pending = s.pending := rfl
@[simp] theorem State.refuse_answer (e : ECode) (w : Word) : (s.refuse e w).answer = s.answer := rfl
@[simp] theorem State.refuse_byte (e : ECode) (w : Word) (k : Nat) : (s.refuse e w).byte k = s.byte k := rfl
@[simp] theorem State.refuse_read16 (e : ECode) (w : Word) (k : Nat) : (s.refuse e w).read16 k = s.read16 k := rfl
@[simp] theorem State.refuse_read32 (e : ECode) (w : Word) (k : Nat) : (s.refuse e w).read32 k = s.read32 k := rfl
@[simp] theorem State.refuse_getX (e : ECode) (w : Word) (r' : Reg) : (s.refuse e w).getX r' = s.getX r' := rfl

/-! ### verdict -/

@[simp] theorem State.verdict_x (v : VCode) : (s.verdict v).x = s.x := rfl
@[simp] theorem State.verdict_status (v : VCode) : (s.verdict v).status = { s.status with lastErr := v.code, ok := false } := rfl
@[simp] theorem State.verdict_errCmd (v : VCode) : (s.verdict v).errCmd = s.errCmd := rfl
@[simp] theorem State.verdict_ckAcc (v : VCode) : (s.verdict v).ckAcc = s.ckAcc := rfl
@[simp] theorem State.verdict_crcAcc (v : VCode) : (s.verdict v).crcAcc = s.crcAcc := rfl
@[simp] theorem State.verdict_frmLen (v : VCode) : (s.verdict v).frmLen = s.frmLen := rfl
@[simp] theorem State.verdict_dur (v : VCode) : (s.verdict v).dur = s.dur := rfl
@[simp] theorem State.verdict_ts1 (v : VCode) : (s.verdict v).ts1 = s.ts1 := rfl
@[simp] theorem State.verdict_ts2 (v : VCode) : (s.verdict v).ts2 = s.ts2 := rfl
@[simp] theorem State.verdict_drops (v : VCode) : (s.verdict v).drops = s.drops := rfl
@[simp] theorem State.verdict_consec (v : VCode) : (s.verdict v).consec = s.consec := rfl
@[simp] theorem State.verdict_maxConsec (v : VCode) : (s.verdict v).maxConsec = s.maxConsec := rfl
@[simp] theorem State.verdict_maxBt (v : VCode) : (s.verdict v).maxBt = s.maxBt := rfl
@[simp] theorem State.verdict_maxBrt (v : VCode) : (s.verdict v).maxBrt = s.maxBrt := rfl
@[simp] theorem State.verdict_total (v : VCode) : (s.verdict v).total = s.total := rfl
@[simp] theorem State.verdict_snap (v : VCode) : (s.verdict v).snap = s.snap := rfl
@[simp] theorem State.verdict_buf (v : VCode) : (s.verdict v).buf = s.buf := rfl
@[simp] theorem State.verdict_resets (v : VCode) : (s.verdict v).resets = s.resets := rfl
@[simp] theorem State.verdict_pending (v : VCode) : (s.verdict v).pending = s.pending := rfl
@[simp] theorem State.verdict_answer (v : VCode) : (s.verdict v).answer = s.answer := rfl
@[simp] theorem State.verdict_byte (v : VCode) (k : Nat) : (s.verdict v).byte k = s.byte k := rfl
@[simp] theorem State.verdict_read16 (v : VCode) (k : Nat) : (s.verdict v).read16 k = s.read16 k := rfl
@[simp] theorem State.verdict_read32 (v : VCode) (k : Nat) : (s.verdict v).read32 k = s.read32 k := rfl
@[simp] theorem State.verdict_getX (v : VCode) (r' : Reg) : (s.verdict v).getX r' = s.getX r' := rfl

/-! ### succeed -/

@[simp] theorem State.succeed_x : (s.succeed).x = s.x := rfl
@[simp] theorem State.succeed_status : (s.succeed).status = { s.status with lastErr := 0 } := rfl
@[simp] theorem State.succeed_errCmd : (s.succeed).errCmd = s.errCmd := rfl
@[simp] theorem State.succeed_ckAcc : (s.succeed).ckAcc = s.ckAcc := rfl
@[simp] theorem State.succeed_crcAcc : (s.succeed).crcAcc = s.crcAcc := rfl
@[simp] theorem State.succeed_frmLen : (s.succeed).frmLen = s.frmLen := rfl
@[simp] theorem State.succeed_dur : (s.succeed).dur = s.dur := rfl
@[simp] theorem State.succeed_ts1 : (s.succeed).ts1 = s.ts1 := rfl
@[simp] theorem State.succeed_ts2 : (s.succeed).ts2 = s.ts2 := rfl
@[simp] theorem State.succeed_drops : (s.succeed).drops = s.drops := rfl
@[simp] theorem State.succeed_consec : (s.succeed).consec = s.consec := rfl
@[simp] theorem State.succeed_maxConsec : (s.succeed).maxConsec = s.maxConsec := rfl
@[simp] theorem State.succeed_maxBt : (s.succeed).maxBt = s.maxBt := rfl
@[simp] theorem State.succeed_maxBrt : (s.succeed).maxBrt = s.maxBrt := rfl
@[simp] theorem State.succeed_total : (s.succeed).total = s.total := rfl
@[simp] theorem State.succeed_snap : (s.succeed).snap = s.snap := rfl
@[simp] theorem State.succeed_buf : (s.succeed).buf = s.buf := rfl
@[simp] theorem State.succeed_resets : (s.succeed).resets = s.resets := rfl
@[simp] theorem State.succeed_pending : (s.succeed).pending = s.pending := rfl
@[simp] theorem State.succeed_answer : (s.succeed).answer = s.answer := rfl
@[simp] theorem State.succeed_byte (k : Nat) : (s.succeed).byte k = s.byte k := rfl
@[simp] theorem State.succeed_read16 (k : Nat) : (s.succeed).read16 k = s.read16 k := rfl
@[simp] theorem State.succeed_read32 (k : Nat) : (s.succeed).read32 k = s.read32 k := rfl
@[simp] theorem State.succeed_getX (r' : Reg) : (s.succeed).getX r' = s.getX r' := rfl

/-! ### pass -/

@[simp] theorem State.pass_x : (s.pass).x = s.x := rfl
@[simp] theorem State.pass_status : (s.pass).status = { s.status with lastErr := 0, ok := true } := rfl
@[simp] theorem State.pass_errCmd : (s.pass).errCmd = s.errCmd := rfl
@[simp] theorem State.pass_ckAcc : (s.pass).ckAcc = s.ckAcc := rfl
@[simp] theorem State.pass_crcAcc : (s.pass).crcAcc = s.crcAcc := rfl
@[simp] theorem State.pass_frmLen : (s.pass).frmLen = s.frmLen := rfl
@[simp] theorem State.pass_dur : (s.pass).dur = s.dur := rfl
@[simp] theorem State.pass_ts1 : (s.pass).ts1 = s.ts1 := rfl
@[simp] theorem State.pass_ts2 : (s.pass).ts2 = s.ts2 := rfl
@[simp] theorem State.pass_drops : (s.pass).drops = s.drops := rfl
@[simp] theorem State.pass_consec : (s.pass).consec = s.consec := rfl
@[simp] theorem State.pass_maxConsec : (s.pass).maxConsec = s.maxConsec := rfl
@[simp] theorem State.pass_maxBt : (s.pass).maxBt = s.maxBt := rfl
@[simp] theorem State.pass_maxBrt : (s.pass).maxBrt = s.maxBrt := rfl
@[simp] theorem State.pass_total : (s.pass).total = s.total := rfl
@[simp] theorem State.pass_snap : (s.pass).snap = s.snap := rfl
@[simp] theorem State.pass_buf : (s.pass).buf = s.buf := rfl
@[simp] theorem State.pass_resets : (s.pass).resets = s.resets := rfl
@[simp] theorem State.pass_pending : (s.pass).pending = s.pending := rfl
@[simp] theorem State.pass_answer : (s.pass).answer = s.answer := rfl
@[simp] theorem State.pass_byte (k : Nat) : (s.pass).byte k = s.byte k := rfl
@[simp] theorem State.pass_read16 (k : Nat) : (s.pass).read16 k = s.read16 k := rfl
@[simp] theorem State.pass_read32 (k : Nat) : (s.pass).read32 k = s.read32 k := rfl
@[simp] theorem State.pass_getX (r' : Reg) : (s.pass).getX r' = s.getX r' := rfl

/-! ### X registers -/

@[simp] theorem State.setX_getX_self (r : Reg) (v : XWord) : (s.setX r v).getX r = v := by
  simp [State.setX, State.getX]

theorem State.setX_getX (r q : Reg) (v : XWord) : (s.setX r v).getX q = if q = r then v else s.getX q := by
  simp only [State.setX, State.getX, Fin.getElem_fin, Vector.getElem_set, Fin.ext_iff, eq_comm]

theorem State.setX_getX_ne {r q : Reg} (v : XWord) (h : q ≠ r) : (s.setX r v).getX q = s.getX q := by
  simp [State.setX_getX, h]

theorem State.setXs_getX (vs : List XWord) (r : Reg) :
    (s.setXs vs).getX r = vs.getD r.val (s.getX r) := by
  simp only [State.getX, State.setXs, Fin.getElem_fin, Vector.getElem_ofFn]

end Sys2Proof.Machine
end

