-- ==== Sys2Proof/Laws/Ops.lean ====
section
/-! SUPPORT. One lemma per shared operation that says all it can do: buffer reads after writes, ranges, the checks, how
an operation ends, the two folds, and the host port's two access forms. -/

namespace Sys2Proof.Machine

/-! ### Bytes after a write -/

theorem State.byte_setByte (s : State) (a k : Nat) (b : Byte) :
    (s.setByte a b).byte k = if k = a then b else s.byte k := by
  simp only [State.byte, State.setByte, Memory.lookup_insert]
  split <;> rfl

theorem State.byte_store (s : State) (a k : Nat) (bs : List Byte) :
    (s.store a bs).byte k = if a ≤ k ∧ k < a + bs.length then bs.getD (k - a) 0 else s.byte k := by
  simp only [State.byte, State.store, Memory.lookup_insertAll]
  split
  · rw [List.getElem?_eq_getElem (by omega), List.getD_eq_getElem _ _ (by omega)]
    rfl
  · rfl

theorem State.byte_store_of_outside (s : State) (a k : Nat) (bs : List Byte)
    (h : k < a ∨ a + bs.length ≤ k) : (s.store a bs).byte k = s.byte k := by
  rw [State.byte_store, if_neg (by omega)]

@[simp] theorem le16_length (v : Half) : (le16 v).length = 2 := rfl

@[simp] theorem le32_length (v : Word) : (le32 v).length = 4 := rfl

theorem State.byte_write16 (s : State) (a k : Nat) (v : Half) :
    (s.write16 a v).byte k =
      if k = a then v.extractLsb' 0 8 else if k = a + 1 then v.extractLsb' 8 8 else s.byte k := by
  rw [State.write16]
  by_cases h0 : k = a
  · subst h0; simp [State.byte_store, le16]
  · by_cases h1 : k = a + 1
    · subst h1; simp [State.byte_store, le16]
    · rw [if_neg h0, if_neg h1, State.byte_store_of_outside _ _ _ _ (by rw [le16_length]; omega)]

theorem State.byte_write32 (s : State) (a k : Nat) (v : Word) :
    (s.write32 a v).byte k =
      if k = a then v.extractLsb' 0 8 else if k = a + 1 then v.extractLsb' 8 8
      else if k = a + 2 then v.extractLsb' 16 8 else if k = a + 3 then v.extractLsb' 24 8 else s.byte k := by
  rw [State.write32]
  by_cases h0 : k = a
  · subst h0; simp [State.byte_store, le32]
  · by_cases h1 : k = a + 1
    · subst h1; simp [State.byte_store, le32]
    · by_cases h2 : k = a + 2
      · subst h2; simp [State.byte_store, le32]
      · by_cases h3 : k = a + 3
        · subst h3; simp [State.byte_store, le32]
        · rw [if_neg h0, if_neg h1, if_neg h2, if_neg h3,
            State.byte_store_of_outside _ _ _ _ (by rw [le32_length]; omega)]

/-- Two bytes joined, least significant first. -/
theorem join16 (v : Half) : v.extractLsb' 8 8 ++ v.extractLsb' 0 8 = v := by
  apply BitVec.eq_of_getLsbD_eq
  intro i hi
  simp only [BitVec.getLsbD_append, BitVec.getLsbD_extractLsb']
  by_cases h : i < 8
  · simp [h]
  · simp [h, show i - 8 < 8 by omega, show 8 + (i - 8) = i by omega]

/-- Four bytes joined, least significant first. -/
theorem join32 (v : Word) :
    v.extractLsb' 24 8 ++ v.extractLsb' 16 8 ++ v.extractLsb' 8 8 ++ v.extractLsb' 0 8 = v := by
  apply BitVec.eq_of_getLsbD_eq
  intro i hi
  simp only [BitVec.getLsbD_append, BitVec.getLsbD_extractLsb']
  by_cases h : i < 8
  · simp [h]
  · by_cases h2 : i - 8 < 8
    · simp [h, h2, show 8 + (i - 8) = i by omega]
    · by_cases h3 : i - 8 - 8 < 8
      · simp [h, h2, h3, show 16 + (i - 8 - 8) = i by omega]
      · simp [h, h2, h3, show i - 8 - 8 - 8 < 8 by omega, show 24 + (i - 8 - 8 - 8) = i by omega]

theorem State.read16_write16 (s : State) (a : Nat) (v : Half) : (s.write16 a v).read16 a = v := by
  simp [State.read16, State.byte_write16, join16]

theorem State.read32_write32 (s : State) (a : Nat) (v : Word) : (s.write32 a v).read32 a = v := by
  simp [State.read32, State.byte_write32, join32]

/-! ### Ranges of BUF -/

@[simp] theorem State.bytes_length (s : State) (a n : Nat) : (s.bytes a n).length = n := by
  induction n generalizing a with
  | zero => rfl
  | succ n ih => simp [State.bytes, ih]

theorem State.bytes_eq_map (s : State) (a n : Nat) :
    s.bytes a n = (List.range n).map fun k => s.byte (a + k) := by
  induction n generalizing a with
  | zero => rfl
  | succ n ih =>
    rw [State.bytes, ih, List.range_succ_eq_map, List.map_cons, List.map_map]
    simp [Function.comp_def, Nat.add_comm, Nat.add_left_comm]

theorem State.bytes_congr {s t : State} (a n : Nat)
    (h : ∀ k, a ≤ k → k < a + n → s.byte k = t.byte k) : s.bytes a n = t.bytes a n := by
  rw [State.bytes_eq_map, State.bytes_eq_map]
  refine List.map_congr_left fun k hk => h _ (Nat.le_add_right a k) ?_
  have := List.mem_range.mp hk
  omega

theorem State.bytes_append (s : State) (a n m : Nat) :
    s.bytes a (n + m) = s.bytes a n ++ s.bytes (a + n) m := by
  induction n generalizing a with
  | zero => simp [State.bytes]
  | succ n ih =>
    rw [Nat.add_right_comm, State.bytes, ih, State.bytes, List.cons_append,
      show a + 1 + n = a + (n + 1) by omega]

theorem State.bytes_succ (s : State) (a n : Nat) : s.bytes a (n + 1) = s.bytes a n ++ [s.byte (a + n)] :=
  s.bytes_append a n 1

/-! ### Checks and endings -/

theorem rangeCheck_eq_none {a n : Nat} : rangeCheck a n = none ↔ a + n ≤ 1024 := by
  simp [rangeCheck]

theorem rangeCheck_of_le {a n : Nat} (h : a + n ≤ 1024) : rangeCheck a n = none := if_pos h

theorem rangeCheck_of_gt {a n : Nat} (h : 1024 < a + n) : rangeCheck a n = some (.refuse .range) :=
  if_neg (Nat.not_le.mpr h)

/-- All an operation with leading checks can do. -/
theorem attempt_cases {i : Instr} {s t : State} {act : Unit → State} {c : Option Stop} (h : attempt i s c act = .next t) :
    (c = none ∧ t = act ()) ∨ (∃ e, c = some (.refuse e) ∧ t = s.refuse e (encode i)) ∨
      (∃ v, c = some (.verdict v) ∧ t = s.verdict v) := by
  unfold attempt at h
  cases c with
  | none => exact .inl ⟨rfl, by injection h with h; exact h.symm⟩
  | some st =>
    cases st with
    | refuse e => exact .inr (.inl ⟨e, rfl, by injection h with h; exact h.symm⟩)
    | verdict v => exact .inr (.inr ⟨v, rfl, by injection h with h; exact h.symm⟩)

theorem attempt_none (i : Instr) (s : State) (act : Unit → State) : attempt i s none act = .next (act ()) := rfl

theorem attempt_refuse (i : Instr) (s : State) (act : Unit → State) (e : ECode) :
    attempt i s (some (.refuse e)) act = .next (s.refuse e (encode i)) := rfl

theorem attempt_verdict (i : Instr) (s : State) (act : Unit → State) (v : VCode) :
    attempt i s (some (.verdict v)) act = .next (s.verdict v) := rfl

/-- A verify operation ends in a verdict or passes. -/
theorem State.judge_cases (s : State) (bad : Bool) (v : VCode) :
    (bad = true ∧ s.judge bad v = s.verdict v) ∨ (bad = false ∧ s.judge bad v = s.pass) := by
  cases bad
  · exact .inr ⟨rfl, rfl⟩
  · exact .inl ⟨rfl, rfl⟩

/-! ### The two folds -/

theorem cksFrom_append (a : Byte) (p q : List Byte) : cksFrom a (p ++ q) = cksFrom (cksFrom a p) q :=
  List.foldl_append

theorem cks_concat (p : List Byte) (b : Byte) : cks (p ++ [b]) = rotr8 (cks p) ^^^ b := by
  simp [cks, cksFrom, cksStep]

theorem crcFold_append (a : Word) (p q : List Byte) : crcFold a (p ++ q) = crcFold (crcFold a p) q :=
  List.foldl_append

theorem crcFinish_finish (a : Word) : crcFinish (crcFinish a) = a := by
  simp [crcFinish]

/-! ### The host port -/

/-- All a 32-bit access can do: the access to a register of the map, or a stop. -/
theorem registerAccess_cases (off : Nat) (k : HostReg → Result) :
    (∃ r, registerAt off = some r ∧ off % 4 = 0 ∧ off < 0x1000 ∧ registerAccess off k = k r) ∨
      (∃ f, registerAccess off k = .fault f) ∨ (∃ r, registerAccess off k = .refused r) := by
  unfold registerAccess
  split
  · exact .inr (.inl ⟨_, rfl⟩)
  · split
    · exact .inr (.inr ⟨_, rfl⟩)
    · split
      · exact .inr (.inr ⟨_, rfl⟩)
      · split
        · exact .inr (.inr ⟨_, rfl⟩)
        · rename_i h1 h2 h3 h4
          cases hr : registerAt off with
          | none => exact .inr (.inr ⟨_, rfl⟩)
          | some r => exact .inl ⟨r, rfl, by omega, by simpa using h3, rfl⟩

/-- All a single-byte access can do: the access to a byte of BUF, or a stop. -/
theorem byteAccess_cases (off : Nat) (k : Nat → Result) :
    (0x1000 ≤ off ∧ off < 0x1400 ∧ byteAccess off k = k (off - 0x1000)) ∨
      (∃ f, byteAccess off k = .fault f) ∨ (∃ r, byteAccess off k = .refused r) := by
  unfold byteAccess
  split
  · exact .inr (.inl ⟨_, rfl⟩)
  · split
    · exact .inr (.inr ⟨_, rfl⟩)
    · split
      · rename_i h1 h2 h3
        simp only [Config.bufWindow, Config.bufSize] at h2 h3
        exact .inl ⟨h3, by omega, rfl⟩
      · exact .inr (.inr ⟨_, rfl⟩)

end Sys2Proof.Machine
end

