-- ==== Sys2Proof/Laws/PerInstr.lean ====
section
/-! SUPPORT. The family OpcodeField: the encoded word of every operation carries that operation's opcode in bits 31:24,
whatever its operands (spec/30_encoding.md R90, R94). -/

namespace Sys2Proof.Laws.OpcodeField

/-- The opcode column of R94. -/
def opcode : Instr → Nat
  | .nop => 0x00 | .clrerr => 0x01
  | .ckInit => 0x10 | .ckByte _ => 0x11 | .ckFold _ _ => 0x12 | .ckSum _ _ => 0x13 | .ckSeal _ _ => 0x14
  | .ckVfy _ _ => 0x15
  | .crcInit => 0x20 | .crcByte _ => 0x21 | .crcFold _ _ => 0x22 | .crcSum _ _ => 0x23 | .crcSeal _ _ => 0x24
  | .crcVfy _ _ => 0x25 | .aiGen _ => 0x26 | .aiVfy _ => 0x27 | .ucGen _ => 0x28 | .ucVfy _ => 0x29
  | .mbxHdr _ => 0x30 | .mbxCmd _ => 0x31 | .mbxCmdz _ => 0x32 | .mbxUnhdr _ => 0x33 | .mbxRspv _ => 0x34
  | .spiPack _ => 0x35 | .spiUnpack _ => 0x36 | .eesUnpack _ => 0x37 | .cycPack _ => 0x38 | .cycUnpack _ => 0x39
  | .latchSet => 0x3A
  | .put8 _ _ => 0x40 | .put16 _ _ => 0x41 | .put32 _ _ => 0x42
  | .get8u _ _ => 0x44 | .get8s _ _ => 0x45 | .get16u _ _ => 0x46 | .get16s _ _ => 0x47 | .get32 _ _ => 0x48
  | .fillZ _ _ => 0x4A | .fillF _ _ => 0x4B
  | .diff32 _ _ _ => 0x50 | .diff8 _ _ _ => 0x51 | .durAcc _ => 0x52 | .durClr => 0x53 | .tsInit _ => 0x54
  | .tsStep _ _ => 0x55 | .acc8 _ _ => 0x56 | .snap8 _ _ => 0x57 | .diagReset => 0x58

/-- Bits 31:24 of the encoded word are the operation's opcode. -/
def Statement (i : Instr) : Prop := field (encode i) 31 24 = opcode i

/-- A word built from an opcode and low bits that fit holds that opcode in bits 31:24. -/
theorem field_wordOf (op low : Nat) (ho : op < 256) (hl : low < 2 ^ 24) : field (wordOf op low) 31 24 = op := by
  simp only [field, wordOf, BitVec.toNat_ofNat]
  omega

theorem lowR_lt (off len : Nat) : lowR off len < 2 ^ 24 := by simp only [lowR]; omega
theorem lowO_lt (off : Nat) : off % 4096 < 2 ^ 24 := by omega
theorem lowM_lt (r : Reg) (off : Nat) : lowM r off < 2 ^ 24 := by have := r.val_lt; simp only [lowM]; omega
theorem lowX_lt (rd ra rb : Reg) : lowX rd ra rb < 2 ^ 24 := by
  have := rd.val_lt; have := ra.val_lt; have := rb.val_lt; simp only [lowX]; omega
theorem lowC_lt (ra : Reg) (ch : Nat) : lowC ra ch < 2 ^ 24 := by have := ra.val_lt; simp only [lowC]; omega
theorem imm_lt (imm : Byte) : imm.toNat < 2 ^ 24 := by have := imm.isLt; omega

theorem nop : Statement (.nop) := field_wordOf _ _ (by decide) (by decide)
theorem clrerr : Statement (.clrerr) := field_wordOf _ _ (by decide) (by decide)
theorem ckInit : Statement (.ckInit) := field_wordOf _ _ (by decide) (by decide)
theorem ckByte (imm : Byte) : Statement (.ckByte imm) := field_wordOf _ _ (by decide) (imm_lt imm)
theorem ckFold (off len : Nat) : Statement (.ckFold off len) := field_wordOf _ _ (by decide) (lowR_lt off len)
theorem ckSum (off len : Nat) : Statement (.ckSum off len) := field_wordOf _ _ (by decide) (lowR_lt off len)
theorem ckSeal (off len : Nat) : Statement (.ckSeal off len) := field_wordOf _ _ (by decide) (lowR_lt off len)
theorem ckVfy (off len : Nat) : Statement (.ckVfy off len) := field_wordOf _ _ (by decide) (lowR_lt off len)
theorem crcInit : Statement (.crcInit) := field_wordOf _ _ (by decide) (by decide)
theorem crcByte (imm : Byte) : Statement (.crcByte imm) := field_wordOf _ _ (by decide) (imm_lt imm)
theorem crcFold (off len : Nat) : Statement (.crcFold off len) := field_wordOf _ _ (by decide) (lowR_lt off len)
theorem crcSum (off len : Nat) : Statement (.crcSum off len) := field_wordOf _ _ (by decide) (lowR_lt off len)
theorem crcSeal (off len : Nat) : Statement (.crcSeal off len) := field_wordOf _ _ (by decide) (lowR_lt off len)
theorem crcVfy (off len : Nat) : Statement (.crcVfy off len) := field_wordOf _ _ (by decide) (lowR_lt off len)
theorem aiGen (off : Nat) : Statement (.aiGen off) := field_wordOf _ _ (by decide) (lowO_lt off)
theorem aiVfy (off : Nat) : Statement (.aiVfy off) := field_wordOf _ _ (by decide) (lowO_lt off)
theorem ucGen (off : Nat) : Statement (.ucGen off) := field_wordOf _ _ (by decide) (lowO_lt off)
theorem ucVfy (off : Nat) : Statement (.ucVfy off) := field_wordOf _ _ (by decide) (lowO_lt off)
theorem mbxHdr (off : Nat) : Statement (.mbxHdr off) := field_wordOf _ _ (by decide) (lowO_lt off)
theorem mbxCmd (off : Nat) : Statement (.mbxCmd off) := field_wordOf _ _ (by decide) (lowO_lt off)
theorem mbxCmdz (off : Nat) : Statement (.mbxCmdz off) := field_wordOf _ _ (by decide) (lowO_lt off)
theorem mbxUnhdr (off : Nat) : Statement (.mbxUnhdr off) := field_wordOf _ _ (by decide) (lowO_lt off)
theorem mbxRspv (off : Nat) : Statement (.mbxRspv off) := field_wordOf _ _ (by decide) (lowO_lt off)
theorem spiPack (off : Nat) : Statement (.spiPack off) := field_wordOf _ _ (by decide) (lowO_lt off)
theorem spiUnpack (off : Nat) : Statement (.spiUnpack off) := field_wordOf _ _ (by decide) (lowO_lt off)
theorem eesUnpack (off : Nat) : Statement (.eesUnpack off) := field_wordOf _ _ (by decide) (lowO_lt off)
theorem cycPack (off : Nat) : Statement (.cycPack off) := field_wordOf _ _ (by decide) (lowO_lt off)
theorem cycUnpack (off : Nat) : Statement (.cycUnpack off) := field_wordOf _ _ (by decide) (lowO_lt off)
theorem latchSet : Statement (.latchSet) := field_wordOf _ _ (by decide) (by decide)
theorem put8 (r : Reg) (off : Nat) : Statement (.put8 r off) := field_wordOf _ _ (by decide) (lowM_lt r off)
theorem put16 (r : Reg) (off : Nat) : Statement (.put16 r off) := field_wordOf _ _ (by decide) (lowM_lt r off)
theorem put32 (r : Reg) (off : Nat) : Statement (.put32 r off) := field_wordOf _ _ (by decide) (lowM_lt r off)
theorem get8u (r : Reg) (off : Nat) : Statement (.get8u r off) := field_wordOf _ _ (by decide) (lowM_lt r off)
theorem get8s (r : Reg) (off : Nat) : Statement (.get8s r off) := field_wordOf _ _ (by decide) (lowM_lt r off)
theorem get16u (r : Reg) (off : Nat) : Statement (.get16u r off) := field_wordOf _ _ (by decide) (lowM_lt r off)
theorem get16s (r : Reg) (off : Nat) : Statement (.get16s r off) := field_wordOf _ _ (by decide) (lowM_lt r off)
theorem get32 (r : Reg) (off : Nat) : Statement (.get32 r off) := field_wordOf _ _ (by decide) (lowM_lt r off)
theorem fillZ (off len : Nat) : Statement (.fillZ off len) := field_wordOf _ _ (by decide) (lowR_lt off len)
theorem fillF (off len : Nat) : Statement (.fillF off len) := field_wordOf _ _ (by decide) (lowR_lt off len)
theorem diff32 (rd ra rb : Reg) : Statement (.diff32 rd ra rb) := field_wordOf _ _ (by decide) (lowX_lt rd ra rb)
theorem diff8 (rd ra rb : Reg) : Statement (.diff8 rd ra rb) := field_wordOf _ _ (by decide) (lowX_lt rd ra rb)
theorem durAcc (ra : Reg) : Statement (.durAcc ra) := field_wordOf _ _ (by decide) (lowX_lt 0 ra 0)
theorem durClr : Statement (.durClr) := field_wordOf _ _ (by decide) (by decide)
theorem tsInit (ra : Reg) : Statement (.tsInit ra) := field_wordOf _ _ (by decide) (lowX_lt 0 ra 0)
theorem tsStep (rd ra : Reg) : Statement (.tsStep rd ra) := field_wordOf _ _ (by decide) (lowX_lt rd ra 0)
theorem acc8 (ra : Reg) (ch : Nat) : Statement (.acc8 ra ch) := field_wordOf _ _ (by decide) (lowC_lt ra ch)
theorem snap8 (ra : Reg) (ch : Nat) : Statement (.snap8 ra ch) := field_wordOf _ _ (by decide) (lowC_lt ra ch)
theorem diagReset : Statement (.diagReset) := field_wordOf _ _ (by decide) (by decide)

end Sys2Proof.Laws.OpcodeField
end

