-- ==== Sys2Proof/Laws/Step.lean ====
section
/-! SUPPORT. What a step does with the host's next event, and what a command word does, each said once. -/

namespace Sys2Proof.Machine

theorem step_cons {s : State} {e : HostEvent} {rest : List HostEvent} (h : s.pending = e :: rest) :
    step s = performEvent e { s with pending := rest } := by
  simp [step, hostStep, h]

/-- A write to CMD's offset reaches the execution unit. -/
theorem performEvent_cmd (w : Word) (s : State) : performEvent (.write32 0x040 w) s = runCommand w s := rfl

/-- All a command word can do: its operation, or one of the two refusals of decoding. -/
theorem runCommand_cases (w : Word) (s : State) :
    (∃ i, decode w = .ok i ∧ runCommand w s = exec i s) ∨
      (decode w = .error .illegal ∧ runCommand w s = .next (s.refuse .illegal w)) ∨
      (decode w = .error .reserved ∧ runCommand w s = .next (s.refuse .reserved w)) := by
  cases h : decode w with
  | ok i => exact .inl ⟨i, rfl, by simp [runCommand, h]⟩
  | error e =>
    cases e with
    | illegal => exact .inr (.inl ⟨rfl, by simp [runCommand, h]⟩)
    | reserved => exact .inr (.inr ⟨rfl, by simp [runCommand, h]⟩)

/-- Of the registers, a host write changes X[i], CKACC or CRCACC, runs a command, or is ignored. -/
theorem writeReg_cases (r : HostReg) (v : Word) (s : State) :
    (∃ i, r = .x i ∧ writeReg r v s = .next (s.setX i (zext v))) ∨
      (r = .ckAcc ∧ writeReg r v s = .next { s with ckAcc := v.extractLsb' 0 8 }) ∨
      (r = .crcAcc ∧ writeReg r v s = .next { s with crcAcc := v }) ∨
      (r = .cmd ∧ writeReg r v s = runCommand v s) ∨ writeReg r v s = .next s := by
  cases r <;> simp [writeReg]

@[simp] theorem State.hardReset_pending (s : State) : s.hardReset.pending = s.pending := rfl
@[simp] theorem State.hardReset_answer (s : State) : s.hardReset.answer = s.answer := rfl
@[simp] theorem State.hardReset_resets (s : State) : s.hardReset.resets = s.resets + 1 := rfl
@[simp] theorem State.hardReset_status (s : State) : s.hardReset.status = Status.reset := rfl
@[simp] theorem State.hardReset_buf (s : State) : s.hardReset.buf = [] := rfl

end Sys2Proof.Machine
end

