-- ==== Sys2Proof/Tests/Slice0.lean ====
section
/-! SUPPORT. Tests. Expected values are the spec's: the encodings of R91 and R94, the vectors of spec/95_test_vectors.md
(their ids are named in the comments) and the examples in the rules. The last part shows, for each obligation with
hypotheses, concrete states and operands that meet them. -/

namespace Sys2Proof.Tests

open Sys2Proof.Machine

/-! ### Helpers -/

/-- The state after reset with X0, X1, … as listed and the bytes `bs` at BUF[a] and on. -/
def start (x : List Word) (a : Nat) (bs : List Byte) : State :=
  { State.reset with x := Vector.ofFn fun r => x.getD r.val 0, buf := Memory.insertAll [] a bs }

/-- One step: the host's write of `w` to CMD. -/
def run (w : Nat) (s : State) : Option State :=
  match step (s.withFetchWord 32 w) with
  | .next t => some t
  | _ => none

/-- What one step shows: STATUS and whatever else is asked for. -/
def seen {α : Type} (w : Nat) (s : State) (f : State → α) : Option (Word × α) :=
  (run w s).map fun t => (t.status.word, f t)

/-- The host's next accesses. -/
def host (s : State) (es : List HostEvent) : State := { s with pending := es }

/-! ### WellFormed refuses an operand that does not fit its field (R92) -/

theorem test_wf_refuses_off : (Instr.ckFold 4096 0).wf = false := by decide
theorem test_wf_refuses_len : (Instr.crcSeal 0 4096).wf = false := by decide
theorem test_wf_refuses_fill_off : (Instr.fillZ 4096 1).wf = false := by decide
theorem test_wf_refuses_format_o : (Instr.cycPack 4096).wf = false := by decide
theorem test_wf_refuses_format_m : (Instr.put32 3 4096).wf = false := by decide
theorem test_wf_refuses_channel : (Instr.acc8 7 256).wf = false := by decide
theorem test_wf_accepts_channel_16 : (Instr.snap8 7 16).wf = true := by decide

/-! ### Decoding: every constructor, its word written out field by field from R91 and R94 -/

theorem test_decode_system :
    decode (0x00#8 ++ 0#24) = .ok .nop ∧ decode (0x01#8 ++ 0#24) = .ok .clrerr := by decide

theorem test_decode_checksum :
    decode (0x10#8 ++ 0#24) = .ok .ckInit ∧
    decode (0x11#8 ++ 0#16 ++ 0xC5#8) = .ok (.ckByte 0xC5) ∧
    decode (0x12#8 ++ 0x9A5#12 ++ 0x3C6#12) = .ok (.ckFold 0x9A5 0x3C6) ∧
    decode (0x13#8 ++ 0x9A5#12 ++ 0x3C6#12) = .ok (.ckSum 0x9A5 0x3C6) ∧
    decode (0x14#8 ++ 0x9A5#12 ++ 0x3C6#12) = .ok (.ckSeal 0x9A5 0x3C6) ∧
    decode (0x15#8 ++ 0x9A5#12 ++ 0x3C6#12) = .ok (.ckVfy 0x9A5 0x3C6) := by decide

theorem test_decode_crc :
    decode (0x20#8 ++ 0#24) = .ok .crcInit ∧
    decode (0x21#8 ++ 0#16 ++ 0xC5#8) = .ok (.crcByte 0xC5) ∧
    decode (0x22#8 ++ 0x9A5#12 ++ 0x3C6#12) = .ok (.crcFold 0x9A5 0x3C6) ∧
    decode (0x23#8 ++ 0x9A5#12 ++ 0x3C6#12) = .ok (.crcSum 0x9A5 0x3C6) ∧
    decode (0x24#8 ++ 0x9A5#12 ++ 0x3C6#12) = .ok (.crcSeal 0x9A5 0x3C6) ∧
    decode (0x25#8 ++ 0x9A5#12 ++ 0x3C6#12) = .ok (.crcVfy 0x9A5 0x3C6) ∧
    decode (0x26#8 ++ 0#12 ++ 0x9A5#12) = .ok (.aiGen 0x9A5) ∧
    decode (0x27#8 ++ 0#12 ++ 0x9A5#12) = .ok (.aiVfy 0x9A5) ∧
    decode (0x28#8 ++ 0#12 ++ 0x9A5#12) = .ok (.ucGen 0x9A5) ∧
    decode (0x29#8 ++ 0#12 ++ 0x9A5#12) = .ok (.ucVfy 0x9A5) := by decide

theorem test_decode_frames :
    decode (0x30#8 ++ 0#12 ++ 0x9A5#12) = .ok (.mbxHdr 0x9A5) ∧
    decode (0x31#8 ++ 0#12 ++ 0x9A5#12) = .ok (.mbxCmd 0x9A5) ∧
    decode (0x32#8 ++ 0#12 ++ 0x9A5#12) = .ok (.mbxCmdz 0x9A5) ∧
    decode (0x33#8 ++ 0#12 ++ 0x9A5#12) = .ok (.mbxUnhdr 0x9A5) ∧
    decode (0x34#8 ++ 0#12 ++ 0x9A5#12) = .ok (.mbxRspv 0x9A5) ∧
    decode (0x35#8 ++ 0#12 ++ 0x9A5#12) = .ok (.spiPack 0x9A5) ∧
    decode (0x36#8 ++ 0#12 ++ 0x9A5#12) = .ok (.spiUnpack 0x9A5) ∧
    decode (0x37#8 ++ 0#12 ++ 0x9A5#12) = .ok (.eesUnpack 0x9A5) ∧
    decode (0x38#8 ++ 0#12 ++ 0x9A5#12) = .ok (.cycPack 0x9A5) ∧
    decode (0x39#8 ++ 0#12 ++ 0x9A5#12) = .ok (.cycUnpack 0x9A5) ∧
    decode (0x3A#8 ++ 0#24) = .ok .latchSet := by decide

theorem test_decode_field_access :
    decode (0x40#8 ++ 0xB#4 ++ 0#8 ++ 0x9A5#12) = .ok (.put8 11 0x9A5) ∧
    decode (0x41#8 ++ 0xB#4 ++ 0#8 ++ 0x9A5#12) = .ok (.put16 11 0x9A5) ∧
    decode (0x42#8 ++ 0xB#4 ++ 0#8 ++ 0x9A5#12) = .ok (.put32 11 0x9A5) ∧
    decode (0x44#8 ++ 0xB#4 ++ 0#8 ++ 0x9A5#12) = .ok (.get8u 11 0x9A5) ∧
    decode (0x45#8 ++ 0xB#4 ++ 0#8 ++ 0x9A5#12) = .ok (.get8s 11 0x9A5) ∧
    decode (0x46#8 ++ 0xB#4 ++ 0#8 ++ 0x9A5#12) = .ok (.get16u 11 0x9A5) ∧
    decode (0x47#8 ++ 0xB#4 ++ 0#8 ++ 0x9A5#12) = .ok (.get16s 11 0x9A5) ∧
    decode (0x48#8 ++ 0xB#4 ++ 0#8 ++ 0x9A5#12) = .ok (.get32 11 0x9A5) ∧
    decode (0x4A#8 ++ 0x9A5#12 ++ 0x3C6#12) = .ok (.fillZ 0x9A5 0x3C6) ∧
    decode (0x4B#8 ++ 0x9A5#12 ++ 0x3C6#12) = .ok (.fillF 0x9A5 0x3C6) := by decide

theorem test_decode_counters :
    decode (0x50#8 ++ 0xB#4 ++ 0x6#4 ++ 0xD#4 ++ 0#12) = .ok (.diff32 11 6 13) ∧
    decode (0x51#8 ++ 0xB#4 ++ 0x6#4 ++ 0xD#4 ++ 0#12) = .ok (.diff8 11 6 13) ∧
    decode (0x52#8 ++ 0#4 ++ 0x6#4 ++ 0#16) = .ok (.durAcc 6) ∧
    decode (0x53#8 ++ 0#24) = .ok .durClr ∧
    decode (0x54#8 ++ 0#4 ++ 0x6#4 ++ 0#16) = .ok (.tsInit 6) ∧
    decode (0x55#8 ++ 0xB#4 ++ 0x6#4 ++ 0#16) = .ok (.tsStep 11 6) ∧
    decode (0x56#8 ++ 0#4 ++ 0x6#4 ++ 0#8 ++ 0x8E#8) = .ok (.acc8 6 0x8E) ∧
    decode (0x57#8 ++ 0#4 ++ 0x6#4 ++ 0#8 ++ 0x8E#8) = .ok (.snap8 6 0x8E) ∧
    decode (0x58#8 ++ 0#24) = .ok .diagReset := by decide

/-- Z2 to Z14: unassigned opcodes, and must-be-zero bits of each format. -/
theorem test_decode_refuses :
    [0x02000000#32, 0xFF000000#32, 0x43000000#32, 0x49000000#32, 0x3B000000#32, 0x59000000#32].map decode =
      List.replicate 6 (.error .illegal) ∧
    [0x00000001#32, 0x11000100#32, 0x26001000#32, 0x40310000#32, 0x50123001#32, 0x52100000#32, 0x55001000#32,
      0x56170002#32, 0x56070100#32].map decode = List.replicate 9 (.error .reserved) := by decide

/-! ### One step of each operation -/

/-- Z1 and R270's example: NOP leaves ERRSEEN. -/
theorem test_nop :
    seen 0x00000000 { State.reset with status := { Status.reset with errSeen := true, lastErr := 2 } } (·.errCmd) =
      some (0x00000800, 0) := by decide
/-- R271's example. -/
theorem test_clrerr :
    seen 0x01000000 { State.reset with status := { Status.reset with errSeen := true }, errCmd := 1 } (·.errCmd) =
      some (0, 1) := by decide
/-- R125's example. -/
theorem test_ck_init : seen 0x10000000 { State.reset with ckAcc := 0x9C } (·.ckAcc) = some (0, 0x42) := by decide
/-- K26. -/
theorem test_ck_byte : seen 0x11000031 State.reset (·.ckAcc) = some (0, 0x10) := by decide
/-- K27. -/
theorem test_ck_fold_empty : seen 0x12400000 State.reset (·.ckAcc) = some (0, 0x42) := by decide
/-- R127's example, its second half. -/
theorem test_ck_fold :
    seen 0x12004005 { start [] 4 [0x35, 0x36, 0x37, 0x38, 0x39] with ckAcc := 0x23 } (·.ckAcc) = some (0, 0x64) := by
  decide
/-- K20. -/
theorem test_ck_sum : seen 0x13000003 (start [] 0 [1, 2, 3, 5]) (·.ckAcc) = some (0, 0x0A) := by decide
/-- K21. -/
theorem test_ck_seal :
    seen 0x14000003 (start [] 0 [1, 2, 3, 9]) (fun t => (t.bytes 0 4, t.ckAcc)) = some (0, [1, 2, 3, 5], 5) := by decide
/-- K22. -/
theorem test_ck_vfy : seen 0x15000004 (start [] 0 [1, 2, 3, 5]) (·.ckAcc) = some (1, 0) := by decide
/-- K23. -/
theorem test_ck_vfy_bad : seen 0x15000004 (start [] 0 [1, 2, 7, 5]) (·.ckAcc) = some (0x000A0000, 2) := by decide
/-- R144's example. -/
theorem test_crc_init : seen 0x20000000 { State.reset with crcAcc := 0x12345678 } (·.crcAcc) =
    some (0, 0xFFFFFFFF) := by decide
/-- Q20. -/
theorem test_crc_byte : seen 0x21000031 State.reset (·.crcAcc) = some (0, 0x7C231048) := by decide
/-- Q21. -/
theorem test_crc_fold :
    seen 0x22001008 { start [] 1 [0x32, 0x33, 0x34, 0x35, 0x36, 0x37, 0x38, 0x39] with crcAcc := 0x7C231048 }
      (fun t => (t.crcAcc, t.readReg .crcOut)) = some (0, 0x340BC6D9, 0xCBF43926) := by decide +kernel
/-- Q7. -/
theorem test_crc_sum : seen 0x23000003 (start [] 0 [0x61, 0x62, 0x63]) (·.readReg .crcOut) =
    some (0, 0x352441C2) := by decide +kernel
/-- Q6, sealed. -/
theorem test_crc_seal : seen 0x24000001 (start [] 0 [0x61]) (fun t => (t.bytes 0 5, t.crcAcc)) =
    some (0, [0x61, 0x43, 0xBE, 0xB7, 0xE8], 0x174841BC) := by decide +kernel
/-- Q26. -/
theorem test_crc_seal_range : seen 0x243FD000 State.reset (·.errCmd) = some (0x00030800, 0x243FD000) := by decide
/-- Q2, verified. -/
theorem test_crc_vfy : seen 0x25000001 (start [] 0 [0x00, 0x8D, 0xEF, 0x02, 0xD2]) (·.crcAcc) =
    some (1, 0x2DFD1072) := by decide +kernel
/-- Q2 with the stored CRC in the wrong byte order (R143): V_CRC. -/
theorem test_crc_vfy_bad : seen 0x25000001 (start [] 0 [0x00, 0xD2, 0x02, 0xEF, 0x8D]) (·.crcAcc) =
    some (0x000B0000, 0x2DFD1072) := by decide +kernel
/-- R152: off = 760 is the last offset, 761 is refused. -/
theorem test_ai_gen_range : seen 0x260002F9 State.reset (·.errCmd) = some (0x00030800, 0x260002F9) := by decide
/-- R153: off = 761 is refused. -/
theorem test_ai_vfy_range : seen 0x270002F9 State.reset (·.errCmd) = some (0x00030800, 0x270002F9) := by decide
/-- Q30: the bytes written. -/
theorem test_uc_gen : seen 0x2800012C (start [] 300 [1, 0, 0, 0, 0xDB, 0x0F, 0x49, 0xC0, 0, 0, 0, 0])
    (fun t => (t.bytes 312 4, t.crcAcc)) = some (0, [0xDC, 0x23, 0x0D, 0x8C], 0x73F2DC23) := by decide +kernel
/-- Q33. -/
theorem test_uc_vfy : seen 0x29000000 (start [] 0 [1, 0, 0, 0, 0, 0, 0, 0, 0, 0, 0, 0, 0x00, 0x8A, 0x70, 0xE0])
    (·.crcAcc) = some (1, 0x1F8F75FF) := by decide +kernel
/-- Q32: V_VERSION. -/
theorem test_uc_vfy_version :
    seen 0x29000000 (start [] 0 [2, 0, 0, 0, 0xDB, 0x0F, 0x49, 0xC0, 0, 0, 0, 0, 0x2C, 0xF1, 0x93, 0xFB])
      (·.errCmd) = some (0x000C0000, 0) := by decide +kernel
/-- M5. -/
theorem test_mbx_hdr : seen 0x30000000 (start [0x1FFF, 506, 7, 1] 0 []) (fun t => (t.bytes 0 5, t.frmLen)) =
    some (1, [0xFF, 0x1F, 0xF9, 0xF1, 0x88], 5) := by decide
/-- M6: V_LEN. -/
theorem test_mbx_hdr_len : seen 0x30000000 (start [0x1FFF, 507, 7, 1] 0 []) (fun t => (t.buf, t.frmLen)) =
    some (0x00080000, [], 0) := by decide
/-- M15: the frame ends at the end of the buffer. -/
theorem test_mbx_cmd : seen 0x310003F7 (start [0x230, 3, 1, 1] 1020 [5, 0, 0]) (fun t => (t.bytes 1015 9, t.frmLen)) =
    some (1, [0x30, 0x02, 0x02, 0x90, 0x99, 5, 0, 0, 0x84], 9) := by decide
/-- M16: the second range check; not even the header is written. -/
theorem test_mbx_cmd_range : seen 0x310003F8 (start [0x230, 3, 1, 1] 0 []) (fun t => (t.buf, t.frmLen)) =
    some (0x00030800, [], 0) := by decide
/-- M13. -/
theorem test_mbx_cmdz : seen 0x32000000 (start [0x230, 3, 1, 1] 5 [5, 9, 9]) (fun t => (t.bytes 0 9, t.frmLen)) =
    some (1, [0x30, 0x02, 0x02, 0x90, 0x99, 0, 0, 0, 0x24], 9) := by decide
/-- M21. -/
theorem test_mbx_unhdr :
    seen 0x33000000 (start [0xAA, 0xAA, 0xAA, 0xAA] 0 [0x30, 0x02, 0x02, 0x20, 0xC1])
      (fun t => [t.getX 0, t.getX 1, t.getX 2, t.getX 3]) = some (1, [0x230, 3, 2, 0]) := by decide
/-- M22: the fields are delivered with the verdict. -/
theorem test_mbx_unhdr_addr :
    seen 0x33000000 (start [0xAA, 0xAA, 0xAA, 0xAA] 0 [0x00, 0xF4, 0x02, 0x90, 0x44])
      (fun t => [t.getX 0, t.getX 1, t.getX 2, t.getX 3]) = some (0x00090000, [0xF400, 3, 1, 1]) := by decide
/-- M31. -/
theorem test_mbx_rspv : seen 0x34000000 (start [0, 3] 0 [5, 1, 0x20, 0x94]) (·.ckAcc) =
    some (0x000A0000, 0x40) := by decide
/-- M34. -/
theorem test_mbx_rspv_range : seen 0x34000201 (start [0, 511] 0 []) (·.ckAcc) = some (0x00030800, 0x42) := by decide
/-- SP2. -/
theorem test_spi_pack : seen 0x35000000 (start [1, 0x0123] 0 []) (fun t => (t.bytes 0 3, t.frmLen)) =
    some (0, [0x23, 0x01, 0x01], 3) := by decide
/-- SP4. -/
theorem test_spi_pack_field : seen 0x35000000 (start [16, 0] 0 []) (·.buf) = some (0x00050800, []) := by decide
/-- SP7. -/
theorem test_spi_unpack : seen 0x36000000 (start [] 0 [0x23, 0x01, 0xFF]) (fun t => [t.getX 0, t.getX 1, t.getX 2]) =
    some (0, [15, 0x123, 1]) := by decide
/-- SP9. -/
theorem test_ees_unpack : seen 0x37000007 (start [5] 7 [0x7F]) (·.getX 0) = some (0, 0) := by decide
/-- Y5. -/
theorem test_cyc_pack :
    seen 0x38000000 { start [1, 1000, 5, 2] 0 [] with status := { Status.reset with errLatch := true } }
      (·.bytes 0 8) = some (0, [0x13, 0x05, 0, 0, 0xE8, 0x03, 0, 0xAD]) := by decide
/-- Y10: refused. -/
theorem test_cyc_pack_field : seen 0x38000000 (start [1, 0x8000, 5, 0] 0 []) (·.buf) = some (0x00050800, []) := by decide

/-- Frame F0 of spec/95 section 2.4. -/
def frameF0 : List Byte :=
  [0x03, 0x05, 0x38, 0xFF, 0xE8, 0x03, 0xDE, 0x03, 0xF0, 0xFF, 0xFF, 0xFF, 0xFB, 0xFF, 0xFF, 0xFF, 0x64, 0, 0, 0, 0x02, 0,
   0x00, 0x01, 0x00, 0x10, 0, 0, 0x00, 0x20, 0, 0, 0x20, 0x03, 0x52, 0x03, 0x70, 0x17, 0xFB, 0xFF, 0x07, 0, 0, 0x9A]

/-- F0 at 100: all sixteen fields and the maxima. -/
theorem test_cyc_unpack : seen 0x39000064 (start [] 100 frameF0) (fun t => (t.x.toList, t.maxBt, t.maxBrt)) =
    some (1, [0xFFFFFFF0, 0xFFFFFFFB, 0x03, 0x3DE, 0x3E8, 2, 1, 0x1000, 0x2000, 0x320, 0x352, 0x1770, 0xFFFFFFFB, 7, 5,
      0x64], 0x320, 0x352) := by decide +kernel
/-- F0 with BUF[112] changed: V_CKSUM. -/
theorem test_cyc_unpack_bad : seen 0x39000064 (start [] 100 (frameF0.set 12 0xEB)) (fun t => (t.ckAcc, t.maxBt)) =
    some (0x000A0000, 0x20, 0) := by decide +kernel
/-- R214's example. -/
theorem test_latch_set : seen 0x3A000000 State.reset (·.errCmd) = some (0x00000400, 0) := by decide
/-- A1. -/
theorem test_put8 : seen 0x4030000A (start [0, 0, 0, 0x12345678] 0 []) (·.buf) = some (0, [(10, 0x78)]) := by decide
/-- A6: refused. -/
theorem test_put16_range : seen 0x413003FF (start [0, 0, 0, 0x12345678] 0 []) (·.buf) = some (0x00030800, []) := by decide
/-- A2. -/
theorem test_put16 : seen 0x4130000C (start [0, 0, 0, 0x12345678] 0 []) (·.buf) =
    some (0, [(12, 0x78), (13, 0x56)]) := by decide
/-- A3. -/
theorem test_put32 : seen 0x42300010 (start [0, 0, 0, 0x12345678] 0 []) (·.buf) =
    some (0, [(16, 0x78), (17, 0x56), (18, 0x34), (19, 0x12)]) := by decide
/-- A10. -/
theorem test_get8u : seen 0x44900014 (start [] 20 [0x80, 0xFF, 0x7F, 0x01]) (·.getX 9) = some (0, 0x80) := by decide
/-- A11. -/
theorem test_get8s : seen 0x45900014 (start [] 20 [0x80, 0xFF, 0x7F, 0x01]) (·.getX 9) = some (0, 0xFFFFFF80) := by decide
/-- A16: an odd offset. -/
theorem test_get16u : seen 0x46900015 (start [] 20 [0x80, 0xFF, 0x7F, 0x01]) (·.getX 9) = some (0, 0x7FFF) := by decide
/-- A14. -/
theorem test_get16s : seen 0x47900014 (start [] 20 [0x80, 0xFF, 0x7F, 0x01]) (·.getX 9) = some (0, 0xFFFFFF80) := by decide
/-- A17. -/
theorem test_get32 : seen 0x48900014 (start [] 20 [0x80, 0xFF, 0x7F, 0x01]) (·.getX 9) = some (0, 0x017FFF80) := by decide
/-- A18: refused, X9 stays. -/
theorem test_get32_range :
    seen 0x489003FD { State.reset with x := Vector.replicate 16 0xAAAAAAAA } (·.getX 9) =
      some (0x00030800, 0xAAAAAAAA) := by decide
/-- A9, its second half. -/
theorem test_fill_z : seen 0x4A020002 (start [] 30 (List.replicate 6 0xFF)) (·.bytes 30 6) =
    some (0, [0xFF, 0xFF, 0, 0, 0xFF, 0xFF]) := by decide
/-- A9, its first half. -/
theorem test_fill_f : seen 0x4B01E006 State.reset (·.bytes 30 6) = some (0, List.replicate 6 0xFF) := by decide
/-- T1. -/
theorem test_diff32 : seen 0x50312000 (start [0, 1, 0xFFFFFFFF] 0 []) (·.getX 3) = some (2, 2) := by decide
/-- T5. -/
theorem test_diff32_signs : seen 0x50312000 (start [0, 0, 0x80000000] 0 []) (·.getX 3) = some (6, 0x80000000) := by decide
/-- T14: bits 31:8 are ignored. -/
theorem test_diff8 : seen 0x51312000 (start [0, 0x103, 0x2FA] 0 []) (·.getX 3) = some (2, 9) := by decide
/-- T13. -/
theorem test_diff8_signs : seen 0x51312000 (start [0, 0, 0x80] 0 []) (·.getX 3) = some (6, 0x80) := by decide
/-- T22. -/
theorem test_dur_acc :
    seen 0x52040000 { start [0, 0, 0, 0, 0xFFFFFF00] 0 [] with dur := 0x1F } (·.dur) =
      some (0, 0xFFFFFFFFFFFFFF1F) := by decide
/-- T25. -/
theorem test_dur_clr : seen 0x53000000 { State.reset with dur := 0xFFFFFFFFFFFFFF1E } (·.dur) = some (0, 0) := by decide
/-- R229: both timestamps, and the streak ends. -/
theorem test_ts_init :
    seen 0x54000000 { start [1000] 0 [] with consec := 4 } (fun t => (t.ts1, t.ts2, t.consec)) =
      some (0, 1000, 1000, 0) := by decide
/-- T32. -/
theorem test_ts_step_jump :
    seen 0x55100000 { start [1000] 0 [] with ts1 := 2000, ts2 := 2000, drops := 1, consec := 1, maxConsec := 1 }
      (fun t => (t.getX 1, t.ts1, t.ts2, t.drops, t.consec)) =
      some (0x00000107, 0xFFFFFC18, 0x3E8, 0x7D0, 1, 0) := by decide
/-- S6: the eleventh duplicate. -/
theorem test_ts_step_drops :
    seen 0x55100000 { start [7] 0 [] with ts1 := 7, ts2 := 7, drops := 10, consec := 10, maxConsec := 10 }
      (fun t => (t.drops, t.consec, t.maxConsec)) = some (0x000D0608, 11, 11, 11) := by decide
/-- S3. -/
theorem test_acc8 :
    seen 0x56070002 { start [0, 0, 0, 0, 0, 0, 0, 3] 0 [] with snap := (Vector.replicate 16 0).set 2 250 }
      (fun t => (t.total[2], t.snap[2])) = some (2, 9, 3) := by decide
/-- Z15: channel 16 decodes and is then refused with E_CHAN. -/
theorem test_acc8_chan : seen 0x56070010 State.reset (·.errCmd) = some (0x00040800, 0x56070010) := by decide
/-- S3, its SNAP8. -/
theorem test_snap8 :
    seen 0x57070002 (start [0, 0, 0, 0, 0, 0, 0, 250] 0 []) (fun t => (t.total[2], t.snap[2])) =
      some (0, 0, 250) := by decide
/-- R242's example. -/
theorem test_diag_reset :
    seen 0x58000000
      { State.reset with
        status := { Status.reset with jump := true }
        total := (Vector.replicate 16 0).set 3 3
        snap := (Vector.replicate 16 0).set 3 4
        drops := 5, consec := 2, maxConsec := 4, maxBt := 9, maxBrt := 8 }
      (fun t => (t.total[3], t.snap[3], t.drops, t.consec, t.maxConsec, t.maxBt, t.maxBrt)) =
      some (0x00000100, 0, 4, 0, 2, 0, 0, 0) := by decide

/-! ### States and operands that meet the hypotheses of the obligations -/

/-- What one step of `s` answers, if it is a next state. -/
def next (s : State) : Option State :=
  match step s with
  | .next t => some t
  | _ => none

theorem flip_ne : ∀ b : Byte, ~~~b ≠ b := by decide

theorem witness_DecodeOfEncodeIsIdentity :
    (Instr.ckFold 4095 4095).wf = true ∧ (Instr.acc8 15 255).wf = true ∧ (Instr.put8 0 0).wf = true := by decide

/-- An unassigned opcode, a set must-be-zero bit, and a word with none. -/
theorem witness_EveryWordIsOneOperationOrRefused :
    Safety.reservedMask ((0x59FFFFFF#32).toNat / 2 ^ 24) = none ∧
    Safety.reservedMask ((0x11000100#32).toNat / 2 ^ 24) = some 0x00FFFF00 ∧ 0x11000100#32 &&& 0x00FFFF00 ≠ 0 ∧
    0x110000FF#32 &&& 0x00FFFF00 = 0 := by decide

theorem witness_ReservedAndUnassignedWordsAreRefused :
    Safety.reservedMask ((0x00000001#32).toNat / 2 ^ 24) = some 0x00FFFFFF ∧ 0x00000001#32 &&& 0x00FFFFFF ≠ 0 ∧
    Safety.reservedMask ((0xFFFFFFFF#32).toNat / 2 ^ 24) = none ∧
    (host State.reset [.write32 0x040 1]).pending = .write32 0x040 1 :: [] := by decide

theorem witness_StepRunsTheDecodedOperation :
    (host State.reset [.write32 0x040 0x110000AB]).pending = .write32 0x040 0x110000AB :: [] ∧
    decode 0x110000AB = .ok (.ckByte 0xAB) ∧ (Instr.ckByte 0xAB).wf = true := by decide

theorem witness_StepKeepsInvariant :
    Safety.Inv (host State.reset [.write32 0x040 0x3A000000]) ∧
    (next (host State.reset [.write32 0x040 0x3A000000])).isSome = true := by decide

theorem witness_HardResetValues : (host State.reset [.hardReset]).pending = .hardReset :: [] := by decide

/-- A refused word, a performed one, CLRERR, and another access. -/
theorem witness_RefusalHasNoOtherEffect :
    (next (host State.reset [.write32 0x040 1])).map (fun t => Safety.isRefusal t.status.lastErr) = some true ∧
    (next (host State.reset [.write32 0x040 0])).map (fun t => Safety.isRefusal t.status.lastErr) = some false ∧
    (next (host State.reset [.write32 0x040 0x01000000])).map (fun t => Safety.isRefusal t.status.lastErr) =
      some false ∧
    (HostEvent.write32 0x044 0 ≠ .hardReset ∧ (∀ w, HostEvent.write32 0x044 0 ≠ .write32 0x040 w)) ∧
    (next (host State.reset [.write32 0x044 0])).isSome = true := by
  refine ⟨by decide, by decide, by decide, ⟨by decide, ?_⟩, by decide⟩
  intro w h
  injection h with h _
  exact absurd h (by decide)

/-- An operation that ends in a verdict, and one that ends in success. -/
theorem witness_EveryOperationEndsInOneOutcome :
    (∃ t, exec (.ckVfy 1024 0) State.reset = .next t ∧ Safety.isVerdict t.status.lastErr = true) ∧
    ∃ t, exec .nop State.reset = .next t ∧ t.status.lastErr = 0 :=
  ⟨⟨_, rfl, by decide⟩, _, rfl, by decide⟩

/-- JUMP set by TS.STEP; JUMP and DROPFAIL cleared by the reset command; DROPFAIL set by the eleventh drop. -/
theorem witness_StatusFieldsAreWrittenOnlyAsListed :
    (∃ t, exec (.tsStep 1 0) (start [0xFFFFFFFF] 0 []) = .next t ∧ t.status.jump ≠ Status.reset.jump) ∧
    (∃ t, exec (.tsStep 1 0) { State.reset with consec := 10 } = .next t ∧ t.status.dropFail ≠ Status.reset.dropFail) ∧
    ∃ t, exec (.cycPack 0)
        { start [0, 0, 0, 2] 0 [] with status := { Status.reset with jump := true, dropFail := true } } = .next t ∧
      t.status.jump ≠ true ∧ t.status.dropFail ≠ true :=
  ⟨⟨_, rfl, by decide⟩, ⟨_, rfl, by decide⟩, _, rfl, by decide⟩

/-- An operation; a refused word and a hardware reset, which perform none. -/
theorem witness_ErrorLatchTransitions :
    (∃ t, exec .latchSet State.reset = .next t) ∧
    (∀ w i, decode w = .ok i → HostEvent.write32 0x040 0x3B000000 ≠ .write32 0x040 w) ∧
    (next (host State.reset [.write32 0x040 0x3B000000])).isSome = true ∧
    (∀ w i, decode w = .ok i → HostEvent.hardReset ≠ .write32 0x040 w) ∧
    (next (host State.reset [.hardReset])).isSome = true := by
  refine ⟨⟨_, rfl⟩, ?_, by decide, fun _ _ _ h => (by cases h), by decide⟩
  intro w i hd h
  injection h with _ h
  subst h
  exact absurd hd (by rw [show decode 0x3B000000 = .error .illegal by decide]; simp)

theorem witness_XRegistersAreWrittenOnlyAsListed :
    (∃ t, exec (.diff32 3 1 2) State.reset = .next t) ∧ (4 : Reg) ∉ Safety.xWritten (.diff32 3 1 2) :=
  ⟨⟨_, rfl⟩, by decide⟩

/-- The first byte on either side of the stored range. -/
theorem witness_BufferIsWrittenOnlyInStoreRanges :
    (∃ t, exec (.put16 0 1022) State.reset = .next t) ∧
    ¬ Safety.within (Safety.storeRanges State.reset (.put16 0 1022)) 1021 ∧
    ¬ Safety.within (Safety.storeRanges State.reset (.put16 0 1022)) 1024 := by
  refine ⟨⟨_, rfl⟩, ?_, ?_⟩ <;> simp [Safety.within, Safety.storeRanges]

theorem witness_SpecialRegistersAreWrittenOnlyAsListed :
    (∃ t, exec .nop State.reset = .next t) ∧ Safety.writesCkAcc .nop = false ∧ Safety.writesCrcAcc .nop = false ∧
    Safety.writesFrmLen .nop = false ∧ Safety.writesDur .nop = false ∧ Safety.writesTimestamps .nop = false ∧
    Safety.isTsStep .nop = false ∧ Instr.nop ≠ .diagReset ∧ Safety.writesTotal .nop = false ∧
    Safety.writesSnap .nop = false ∧ ∀ off, Instr.nop ≠ .cycUnpack off :=
  ⟨⟨_, rfl⟩, by decide, by decide, by decide, by decide, by decide, by decide, by decide, by decide, by decide,
    fun _ h => (by cases h)⟩

theorem witness_OutOfRangeOperandsAreRefused :
    Safety.firstRange (.put8 0 1024) = some (1024, 1) ∧ 1024 < 1024 + 1 ∧
    Safety.firstRange (.ckFold 1025 0) = some (1025, 0) ∧ 1024 < 1025 + 0 := by decide

theorem witness_HostByteAccess :
    1023 < 1024 ∧ (host State.reset [.read8 (0x1000 + 1023)]).pending = .read8 (0x1000 + 1023) :: [] ∧
    (host State.reset [.write8 (0x1000 + 1023) 7]).pending = .write8 (0x1000 + 1023) 7 :: [] := by decide

/-- The last register of each bank, and a single register. -/
theorem witness_HostRegisterReads :
    (host State.reset [.read32 0x03C]).pending = .read32 0x03C :: [] ∧ 0x03C = 4 * (15 : Reg).val ∧
    (host State.reset [.read32 0x13C]).pending = .read32 0x13C :: [] ∧ 0x13C = 0x100 + 4 * (15 : Fin 16).val ∧
    (host State.reset [.read32 0x17C]).pending = .read32 0x17C :: [] ∧ 0x17C = 0x140 + 4 * (15 : Fin 16).val ∧
    (host State.reset [.read32 0x07C]).pending = .read32 0x07C :: [] ∧
    (0x07C, State.reset.maxBrt.setWidth 32) ∈
      [(0x040, 0), (0x044, State.reset.status.word), (0x048, State.reset.errCmd),
       (0x04C, State.reset.ckAcc.setWidth 32), (0x050, State.reset.crcAcc),
       (0x054, State.reset.crcAcc ^^^ 0xFFFFFFFF#32), (0x058, State.reset.frmLen),
       (0x05C, BitVec.ofNat 32 State.reset.dur.toNat), (0x060, BitVec.ofNat 32 (State.reset.dur.toNat / 2 ^ 32)),
       (0x064, State.reset.ts1), (0x068, State.reset.ts2), (0x06C, State.reset.drops), (0x070, State.reset.consec),
       (0x074, State.reset.maxConsec), (0x078, State.reset.maxBt.setWidth 32),
       (0x07C, State.reset.maxBrt.setWidth 32)] := by decide

theorem witness_HostRegisterWrites :
    (host State.reset [.write32 0x03C 5]).pending = .write32 0x03C 5 :: [] ∧ 0x03C = 4 * (15 : Reg).val ∧
    (host State.reset [.write32 0x04C 5]).pending = .write32 0x04C 5 :: [] ∧
    (host State.reset [.write32 0x050 5]).pending = .write32 0x050 5 :: [] ∧
    (host State.reset [.write32 0x044 5]).pending = .write32 0x044 5 :: [] ∧
    (host State.reset [.write32 0x17C 5]).pending = .write32 0x17C 5 :: [] ∧
    (0x100 ≤ 0x17C ∧ 0x17C < 0x180 ∧ 0x17C % 4 = 0) := by decide

/-- The edges of the reserved ranges, of BUF and of the window. -/
theorem witness_UndefinedAccessesStop :
    State.reset.pending = [] ∧
    ((host State.reset [.read8 0x2000]).pending = .read8 0x2000 :: [] ∧ 0x2000 ≤ 0x2000) ∧
    ((host State.reset [.otherSize 0x1FFF]).pending = .otherSize 0x1FFF :: [] ∧ 0x1FFF < 0x2000) ∧
    ((host State.reset [.read32 0x1400]).pending = .read32 0x1400 :: [] ∧
      (host State.reset [.read32 0x1400]).pending ≠ .otherSize 0x1400 :: [] ∧ 0x1400 ≤ 0x1400 ∧ 0x1400 < 0x2000) ∧
    ((host State.reset [.read32 0x0FC]).pending = .read32 0x0FC :: [] ∧
      (0x080 ≤ 0x0FC ∧ 0x0FC < 0x100 ∨ 0x180 ≤ 0x0FC ∧ 0x0FC < 0x1000) ∧ 0x0FC % 4 = 0) ∧
    ((host State.reset [.write32 0xFFD 0]).pending = .write32 0xFFD 0 :: [] ∧
      (0xFFD < 0x1000 ∧ 0xFFD % 4 ≠ 0 ∨ 0x1000 ≤ 0xFFD ∧ 0xFFD < 0x1400)) ∧
    ((host State.reset [.write8 0xFFF 0]).pending = .write8 0xFFF 0 :: [] ∧ 0xFFF < 0x1000) := by decide

theorem witness_SystemOperations :
    0 < (0x00000001#32).toNat ∧ (0x01FFFFFF#32).toNat < 0x02000000 ∧ 0x01FFFFFF#32 ≠ 0x01000000 ∧
    (host State.reset [.write32 0x040 0x01FFFFFF]).pending = .write32 0x040 0x01FFFFFF :: [] := by decide

theorem witness_AccumulatorClears :
    (0x10000000 < (0x10FFFFFF#32).toNat ∧ (0x10FFFFFF#32).toNat < 0x11000000) ∧
    (0x20000000 < (0x20000001#32).toNat ∧ (0x20000001#32).toNat < 0x21000000) ∧
    (0x53000000 < (0x53800000#32).toNat ∧ (0x53800000#32).toNat < 0x54000000) ∧
    (host State.reset [.write32 0x040 0x53800000]).pending = .write32 0x040 0x53800000 :: [] := by decide

theorem witness_ChecksumFrameProperties : cks ([] ++ 0x21 :: []) = 0 ∧ (0x20 : Byte) ≠ 0x21 := by decide

theorem witness_ChecksumFoldResults : 1023 + 1 ≤ 1024 ∧ 1024 + 0 ≤ 1024 := by decide

theorem witness_ChecksumSealAndVerifyResults : 1023 + 0 + 1 ≤ 1024 ∧ 1024 + 0 ≤ 1024 := by decide

/-- The last byte of a frame, its checksum, replaced. -/
theorem witness_SealedFrameVerifies :
    1020 + 3 + 1 ≤ 1024 ∧
    ∃ t, exec (.ckSeal 1020 3) State.reset = .next t ∧ 3 ≤ 3 ∧ ~~~(t.byte (1020 + 3)) ≠ t.byte (1020 + 3) :=
  ⟨by decide, _, rfl, by decide, flip_ne _⟩

theorem witness_CrcDetectsOneByteChange : (0 : Byte) ≠ 0x80 := by decide

theorem witness_CrcFoldResults : 1023 + 1 ≤ 1024 ∧ 1024 + 0 ≤ 1024 := by decide

theorem witness_CrcSealAndVerifyResults : 1020 + 0 + 4 ≤ 1024 := by decide

theorem witness_ActuatorRecordGeneration : 760 + 264 ≤ 1024 := by decide

theorem witness_ActuatorRecordVerification :
    760 + 264 ≤ 1024 ∧ ∃ k256 k264 : Bool,
      (k256 = true ↔ (crc32 (Safety.buf State.reset 760 252)).toNat = Safety.u32 State.reset (760 + 252)) ∧
      (k264 = true ↔ (crc32 (Safety.buf State.reset 760 260)).toNat = Safety.u32 State.reset (760 + 260)) :=
  ⟨by decide, decide _, decide _, decide_eq_true_iff, decide_eq_true_iff⟩

/-- A byte of each row of R154's table, replaced. -/
theorem witness_ActuatorRecordCorruption :
    760 + 264 ≤ 1024 ∧ ∃ t, exec (.aiGen 760) State.reset = .next t ∧
      ∀ p ∈ [0, 251, 252, 255, 256, 259, 260, 263], p < 264 ∧ ~~~(t.byte (760 + p)) ≠ t.byte (760 + p) := by
  refine ⟨by decide, _, rfl, fun p hp => ⟨?_, flip_ne _⟩⟩
  revert p
  decide

theorem witness_UserConfigRecord : 1008 + 16 ≤ 1024 := by decide

/-- The longest write and the longest read, at the last offset. -/
theorem witness_MailboxHeaderIsBuilt :
    1019 + 5 ≤ 1024 ∧ Safety.Buildable (start [0x1FFF, 506, 7, 1] 0 []) ∧
    Safety.Buildable (start [0, 511, 0, 0] 0 []) ∧ Safety.Buildable (start [0, 1, 0, 0] 0 []) := by decide

theorem witness_MailboxCommandIsBuilt :
    Safety.Buildable (start [0x1FFF, 506, 7, 1] 0 []) ∧
    512 + Safety.commandSize (start [0x1FFF, 506, 7, 1] 0 []) ≤ 1024 ∧ (start [0x1FFF, 506, 7, 1] 0 []).getX 3 = 1 ∧
    Safety.Buildable (start [0, 511, 0, 0] 0 []) ∧
    1019 + Safety.commandSize (start [0, 511, 0, 0] 0 []) ≤ 1024 := by decide

theorem witness_ZeroFilledMailboxCommandIsBuilt :
    Safety.Buildable (start [0x1FFF, 506, 7, 1] 0 []) ∧
    512 + Safety.commandSize (start [0x1FFF, 506, 7, 1] 0 []) ≤ 1024 ∧
    (start [0x1FFF, 506, 7, 1] 0 []).getX 3 = 1 := by decide

/-- A direction, a length and an address just too large, and a frame one byte too long for its place. -/
theorem witness_MailboxBuildersCheckInOrder :
    1019 + 5 ≤ 1024 ∧ Instr.mbxCmd 1019 ∈ [Instr.mbxHdr 1019, Instr.mbxCmd 1019, Instr.mbxCmdz 1019] ∧
    1 < ((start [0, 1, 0, 2] 0 []).getX 3).toNat ∧
    (((start [0, 507, 0, 1] 0 []).getX 3).toNat ≤ 1 ∧
      Safety.maxLen ((start [0, 507, 0, 1] 0 []).getX 3).toNat < ((start [0, 507, 0, 1] 0 []).getX 1).toNat) ∧
    (1 ≤ ((start [0x2000, 511, 0, 0] 0 []).getX 1).toNat ∧
      ((start [0x2000, 511, 0, 0] 0 []).getX 1).toNat ≤ Safety.maxLen ((start [0x2000, 511, 0, 0] 0 []).getX 3).toNat ∧
      0x2000 ≤ ((start [0x2000, 511, 0, 0] 0 []).getX 0).toNat) ∧
    (Safety.Buildable (start [0, 1, 0, 1] 0 []) ∧ Instr.mbxCmd 1018 ≠ .mbxHdr 1018 ∧ 1018 + 5 ≤ 1024 ∧
      1024 < 1018 + Safety.commandSize (start [0, 1, 0, 1] 0 [])) := by decide

theorem witness_MailboxHeaderIsParsed :
    0 + 5 ≤ 1024 ∧ cks (Safety.buf (start [] 0 [0x30, 0x02, 0x02, 0x90, 0x98]) 0 5) ≠ 0 ∧
    cks (Safety.buf (start [] 0 [0x30, 0x02, 0x02, 0x90, 0x99]) 0 5) = 0 := by decide

theorem witness_BuiltHeaderParsesBack :
    1019 + 5 ≤ 1024 ∧ Safety.Buildable (start [0x1FFF, 511, 15, 0] 0 []) := by decide

/-- Lengths 0, 512 and 511, the last one byte past BUF and just inside it. -/
theorem witness_MailboxResponseVerification :
    (State.reset.getX 1).toNat = 0 ∧ 511 < ((start [0, 512] 0 []).getX 1).toNat ∧
    (1 ≤ ((start [0, 511] 0 []).getX 1).toNat ∧ ((start [0, 511] 0 []).getX 1).toNat ≤ 511 ∧
      1024 < 513 + ((start [0, 511] 0 []).getX 1).toNat + 1 ∧
      512 + ((start [0, 511] 0 []).getX 1).toNat + 1 ≤ 1024) := by decide

theorem witness_SpiFrames :
    1021 + 3 ≤ 1024 ∧ 1023 + 1 ≤ 1024 ∧
    (((start [15, 0xFFFF] 0 []).getX 0).toNat ≤ 15 ∧ ((start [15, 0xFFFF] 0 []).getX 1).toNat ≤ 0xFFFF) ∧
    15 < ((start [16, 0] 0 []).getX 0).toNat ∧ 0xFFFF < ((start [0, 0x10000] 0 []).getX 1).toNat := by decide

theorem witness_CycleCommandIsBuiltOrRefused :
    1016 + 8 ≤ 1024 ∧ Safety.Packable (start [1, 0xFFFF8000, 0xFF, 3] 0 []) ∧
    Safety.Packable (start [0, 0x7FFF, 0, 0] 0 []) ∧ ¬ Safety.Packable (start [1, 0x8000, 0, 2] 0 []) ∧
    ¬ Safety.Packable (start [1, 0xFFFF7FFF, 0, 0] 0 []) := by decide

theorem witness_CycleStatusIsUnpacked :
    980 + 44 ≤ 1024 ∧ cks (Safety.buf (start [] 980 (frameF0.set 12 0xEB)) 980 44) ≠ 0 ∧
    cks (Safety.buf (start [] 980 frameF0) 980 44) = 0 := by decide +kernel

theorem witness_LatchSet :
    0x3A000000 < (0x3A000001#32).toNat ∧ (0x3AFFFFFF#32).toNat < 0x3B000000 ∧
    (host State.reset [.write32 0x040 0x3AFFFFFF]).pending = .write32 0x040 0x3AFFFFFF :: [] := by decide

theorem witness_DeltaResults :
    (Instr.diff32 3 1 2, 2 ^ 32) ∈ [(Instr.diff32 3 1 2, 2 ^ 32), (Instr.diff8 3 1 2, 2 ^ 8)] ∧
    (Instr.diff8 3 1 2, 2 ^ 8) ∈ [(Instr.diff32 3 1 2, 2 ^ 32), (Instr.diff8 3 1 2, 2 ^ 8)] := by decide

/-- Distances 2 across the wraparound, -2^31 and 2^31 - 1. -/
theorem witness_SignedDeltaIsTheTrueDistance :
    ((start [0, 1, 0xFFFFFFFF] 0 []).getX 1 = BitVec.ofInt 32 (2 ^ 32 + 1) ∧
      (start [0, 1, 0xFFFFFFFF] 0 []).getX 2 = BitVec.ofInt 32 (2 ^ 32 - 1) ∧
      (-2 : Int) ^ 31 ≤ 2 ^ 32 + 1 - (2 ^ 32 - 1) ∧ ((2 : Int) ^ 32 + 1) - (2 ^ 32 - 1) < 2 ^ 31) ∧
    (-2 : Int) ^ 31 ≤ 0 - 2 ^ 31 ∧ ((2 : Int) ^ 31 - 1) - 0 < 2 ^ 31 := by decide

/-- The tenth and the eleventh frame with the timestamp 0, and a frame with another. -/
theorem witness_EleventhDuplicateFails :
    State.reset.ts1 = 0 ∧ State.reset.consec = 0 ∧ (1 ≤ 10 ∧ 10 < 2 ^ 32 ∧ 10 ≤ 10) ∧
    (1 ≤ 11 ∧ 11 < 2 ^ 32 ∧ 11 ≤ 11) ∧ (1 : Word) ≠ 0 := by decide

theorem witness_CounterChannels : 16 ≤ 16 ∧ 16 ≤ 255 := by decide

theorem witness_DiagnosticsReset :
    0x58000000 < (0x58000001#32).toNat ∧ (0x58FFFFFF#32).toNat < 0x59000000 ∧
    (host State.reset [.write32 0x040 0x58000001]).pending = .write32 0x040 0x58000001 :: [] := by decide

theorem witness_FieldStores :
    (Instr.put32 3 1020, 4) ∈ [(Instr.put8 3 1020, 1), (Instr.put16 3 1020, 2), (Instr.put32 3 1020, 4)] ∧
    1020 + 4 ≤ 1024 := by decide

theorem witness_FieldLoads :
    let s := start [] 1023 [0x80]
    (Instr.get8s 9 1023, 1, true, (s.byte 1023).toNat) ∈
      [(Instr.get8u 9 1023, 1, false, (s.byte 1023).toNat), (Instr.get8s 9 1023, 1, true, (s.byte 1023).toNat),
       (Instr.get16u 9 1023, 2, false, Safety.u16 s 1023), (Instr.get16s 9 1023, 2, true, Safety.u16 s 1023),
       (Instr.get32 9 1023, 4, false, Safety.u32 s 1023)] ∧ 1023 + 1 ≤ 1024 := by simp

theorem witness_StoredFieldLoadsBack : 1020 + 4 ≤ 1024 ∧ 1022 + 2 ≤ 1024 ∧ 1023 + 1 ≤ 1024 := by decide

theorem witness_FillResults :
    (Instr.fillF 1024 0, (0xFF : Byte)) ∈ [(Instr.fillZ 1024 0, 0x00), (Instr.fillF 1024 0, 0xFF)] ∧
    1024 + 0 ≤ 1024 ∧ 0 + 1024 ≤ 1024 := by decide

end Sys2Proof.Tests
end

section
/-! Settles O50 (spec/44_counters.md R220, R222, R224): DIFF32 subtracts modulo 2^32, and a difference of two counts
taken modulo 2^w, read as signed, is their true distance wherever a signed w-bit number can hold it. -/

namespace Sys2Proof.Machine

/-- DIFF32 with the parameters of R5, where its operands are whole registers (R222). -/
theorem exec_diff32 (rd ra rb : Reg) (s : State) :
    exec (.diff32 rd ra rb) s =
      .next ((s.setDeltaFlags (s.getX ra) (s.getX rb)).setX rd (s.getX ra - s.getX rb)).succeed := by
  change execDiff32 rd ra rb s = _
  simp only [execDiff32, low32_eq, zext_word]

/-- The reductions of `new` and `old` modulo 2^w do not show in the difference (R220). -/
theorem ofInt_sub_ofInt (w : Nat) (new old : Int) :
    BitVec.ofInt w new - BitVec.ofInt w old = BitVec.ofInt w (new - old) := by
  apply BitVec.eq_of_toInt_eq
  simp only [BitVec.toInt_sub, BitVec.toInt_ofInt, Int.bmod_sub_bmod, Int.sub_bmod_bmod]

/-- The principle of R220, at every width. -/
theorem toInt_ofInt_sub_ofInt {w : Nat} (hw : 0 < w) {new old : Int}
    (hlo : -2 ^ (w - 1) ≤ new - old) (hhi : new - old < 2 ^ (w - 1)) :
    (BitVec.ofInt w new - BitVec.ofInt w old).toInt = new - old := by
  rw [ofInt_sub_ofInt, BitVec.toInt_ofInt_eq_self hw hlo hhi]

/-- Settles O50: X[rd] is the 32-bit difference, to which the principle of R220 applies. -/
theorem signedDeltaIsTheTrueDistance : Obligations.SignedDeltaIsTheTrueDistance := by
  intro rd ra rb s new old hnew hold hlo hhi
  refine ⟨_, exec_diff32 rd ra rb s, ?_⟩
  rw [State.succeed_getX, State.setX_getX_self, hnew, hold]
  exact toInt_ofInt_sub_ofInt (by decide) hlo hhi

end Sys2Proof.Machine
end

section
/-! The host port (spec/10_state.md R25, R27, R28, R44, R45): where the register map puts each register, what an access
that reaches a register does and which accesses reach none. Settles O20, O18, O19, O21, O7 and O8. -/

namespace Sys2Proof.Machine

/-! ### The register map (R27) -/

theorem registerAt_x (r : Reg) : registerAt (4 * r.val) = some (.x r) := by
  revert r; decide

theorem registerAt_total (ch : Chan) : registerAt (0x100 + 4 * ch.val) = some (.total ch) := by
  revert ch; decide

theorem registerAt_snap (ch : Chan) : registerAt (0x140 + 4 * ch.val) = some (.snap ch) := by
  revert ch; decide

theorem bankIndex_eq_none {n base off : Nat} (h : off < base ∨ base + 4 * n ≤ off) : bankIndex n base off = none :=
  dif_neg (by omega)

theorem namedRegister_eq_none {off : Nat} (h : off < 0x040 ∨ 0x080 ≤ off) : namedRegister off = none := by
  unfold namedRegister
  split
  case h_17 => rfl
  all_goals omega

/-- The reserved offsets below BUF (R27). -/
theorem registerAt_eq_none {off : Nat} (h : 0x080 ≤ off ∧ off < 0x100 ∨ 0x180 ≤ off) : registerAt off = none := by
  have hx : bankIndex Config.nx 0x000 off = none := bankIndex_eq_none (by simp only [Config.nx]; omega)
  have htotal : bankIndex Config.nch 0x100 off = none := bankIndex_eq_none (by simp only [Config.nch]; omega)
  have hsnap : bankIndex Config.nch 0x140 off = none := bankIndex_eq_none (by simp only [Config.nch]; omega)
  simp [registerAt, hx, namedRegister_eq_none (off := off) (by omega), htotal, hsnap]

/-- The registers a host write leaves alone (R28). -/
def HostReg.readOnly : HostReg → Bool
  | .x _ | .cmd | .ckAcc | .crcAcc => false
  | _ => true

theorem writeReg_of_readOnly {r : HostReg} (h : r.readOnly = true) (v : Word) (s : State) :
    writeReg r v s = .next s := by
  rcases writeReg_cases r v s with ⟨i, rfl, _⟩ | ⟨rfl, _⟩ | ⟨rfl, _⟩ | ⟨rfl, _⟩ | hw
  case inr.inr.inr.inr => exact hw
  all_goals exact absurd h Bool.false_ne_true

/-- The offsets of the read-only single registers (R27, R28). -/
def readOnlyOffsets : List Nat :=
  [0x044, 0x048, 0x054, 0x058, 0x05C, 0x060, 0x064, 0x068, 0x06C, 0x070, 0x074, 0x078, 0x07C]

theorem readOnly_of_mem {off : Nat} (h : off ∈ readOnlyOffsets) :
    ∃ r, registerAt off = some r ∧ r.readOnly = true ∧ off % 4 = 0 := by
  have table : ∀ a ∈ readOnlyOffsets, (registerAt a).map HostReg.readOnly = some true ∧ a % 4 = 0 := by decide
  obtain ⟨hmap, ha⟩ := table off h
  obtain ⟨r, hr, hro⟩ := Option.map_eq_some_iff.mp hmap
  exact ⟨r, hr, hro, ha⟩

/-- The two banks of counters are read-only (R27, R28). -/
theorem readOnly_of_counter {off : Nat} (hlo : 0x100 ≤ off) (hhi : off < 0x180) (ha : off % 4 = 0) :
    ∃ r, registerAt off = some r ∧ r.readOnly = true := by
  rcases Nat.lt_or_ge off 0x140 with h | h
  · have hch : (off - 0x100) / 4 < 16 := by omega
    have hoff : off = 0x100 + 4 * (⟨(off - 0x100) / 4, hch⟩ : Chan).val := by
      simp only; omega
    exact ⟨_, hoff ▸ registerAt_total _, rfl⟩
  · have hch : (off - 0x140) / 4 < 16 := by omega
    have hoff : off = 0x140 + 4 * (⟨(off - 0x140) / 4, hch⟩ : Chan).val := by
      simp only; omega
    exact ⟨_, hoff ▸ registerAt_snap _, rfl⟩

/-! ### The two access forms -/

/-- A register access by the numbers of R5: the window ends at 0x2000, BUF stands at 0x1000. -/
theorem registerAccess_eq (off : Nat) (k : HostReg → Result) : registerAccess off k =
    if 0x2000 ≤ off then .fault (.outsideWindow off)
    else if 0x1400 ≤ off then .refused (.reservedOffset off)
    else if 0x1000 ≤ off then .refused (.accessShape off)
    else if off % 4 ≠ 0 then .refused (.accessShape off)
    else (registerAt off).elim (.refused (.reservedOffset off)) k := by
  unfold registerAccess
  cases registerAt off <;> rfl

/-- A byte access by the numbers of R5. -/
theorem byteAccess_eq (off : Nat) (k : Nat → Result) : byteAccess off k =
    if 0x2000 ≤ off then .fault (.outsideWindow off)
    else if 0x1400 ≤ off then .refused (.reservedOffset off)
    else if 0x1000 ≤ off then k (off - 0x1000)
    else .refused (.accessShape off) := rfl

/-- An aligned access to a register of the map reaches it. -/
theorem registerAccess_of_registerAt {off : Nat} {r : HostReg} (k : HostReg → Result)
    (hr : registerAt off = some r) (ha : off % 4 = 0) : registerAccess off k = k r := by
  have hlt : off < 0x180 := by
    by_contra hge
    rw [registerAt_eq_none (by omega)] at hr
    cases hr
  rw [registerAccess_eq, if_neg (by omega), if_neg (by omega), if_neg (by omega), if_neg (by omega), hr, Option.elim]

theorem registerAccess_outside {off : Nat} (k : HostReg → Result) (h : 0x2000 ≤ off) :
    registerAccess off k = .fault (.outsideWindow off) := if_pos h

theorem registerAccess_past_buf {off : Nat} (k : HostReg → Result) (hlo : 0x1400 ≤ off) (hhi : off < 0x2000) :
    registerAccess off k = .refused (.reservedOffset off) := by
  rw [registerAccess_eq, if_neg (by omega), if_pos hlo]

theorem registerAccess_reserved {off : Nat} (k : HostReg → Result)
    (h : 0x080 ≤ off ∧ off < 0x100 ∨ 0x180 ≤ off ∧ off < 0x1000) (ha : off % 4 = 0) :
    registerAccess off k = .refused (.reservedOffset off) := by
  rw [registerAccess_eq, if_neg (by omega), if_neg (by omega), if_neg (by omega), if_neg (by omega),
    registerAt_eq_none (by omega), Option.elim]

/-- A 32-bit access that is misaligned or goes to BUF. -/
theorem registerAccess_shape {off : Nat} (k : HostReg → Result)
    (h : off < 0x1000 ∧ off % 4 ≠ 0 ∨ 0x1000 ≤ off ∧ off < 0x1400) :
    registerAccess off k = .refused (.accessShape off) := by
  rw [registerAccess_eq, if_neg (by omega), if_neg (by omega)]
  rcases h with ⟨hlt, ha⟩ | ⟨hge, _⟩
  · rw [if_neg (by omega), if_pos ha]
  · rw [if_pos hge]

theorem byteAccess_outside {off : Nat} (k : Nat → Result) (h : 0x2000 ≤ off) :
    byteAccess off k = .fault (.outsideWindow off) := if_pos h

theorem byteAccess_past_buf {off : Nat} (k : Nat → Result) (hlo : 0x1400 ≤ off) (hhi : off < 0x2000) :
    byteAccess off k = .refused (.reservedOffset off) := by
  rw [byteAccess_eq, if_neg (by omega), if_pos hlo]

/-- A single-byte access to the register part of the window. -/
theorem byteAccess_shape {off : Nat} (k : Nat → Result) (h : off < 0x1000) :
    byteAccess off k = .refused (.accessShape off) := by
  rw [byteAccess_eq, if_neg (by omega), if_neg (by omega), if_neg (by omega)]

/-! ### Steps whose event reaches a register -/

theorem step_read32 {s : State} {rest : List HostEvent} {off : Nat} {r : HostReg}
    (hp : s.pending = .read32 off :: rest) (hr : registerAt off = some r) (ha : off % 4 = 0) :
    step s = .next { s with pending := rest, answer := some (s.readReg r) } := by
  have hread : State.readReg { s with pending := rest } r = s.readReg r := by cases r <;> rfl
  rw [step_cons hp, performEvent, registerAccess_of_registerAt _ hr ha, hread]

theorem step_write32 {s : State} {rest : List HostEvent} {off : Nat} {v : Word} {r : HostReg}
    (hp : s.pending = .write32 off v :: rest) (hr : registerAt off = some r) (ha : off % 4 = 0) :
    step s = writeReg r v { s with pending := rest } := by
  rw [step_cons hp, performEvent, registerAccess_of_registerAt _ hr ha]

/-! ### STATUS as a word (R25) -/

/-- The parts of a joined word occupy separate bits. -/
theorem append_toNat {m n : Nat} (a : BitVec m) (b : BitVec n) : (a ++ b).toNat = 2 ^ n * a.toNat + b.toNat := by
  rw [BitVec.toNat_append, ← Nat.shiftLeft_add_eq_or_of_lt b.isLt, Nat.shiftLeft_eq, Nat.mul_comm]

/-- Settles O20: `Status.word` joins the fields, each part weighing 2 to the width of what follows it. -/
theorem statusRegisterLayout : Obligations.StatusRegisterLayout := by
  intro st
  simp only [Status.word, append_toNat, BitVec.toNat_ofBool, BitVec.toNat_ofNat]
  omega

/-! ### Reads and writes of the map -/

/-- DUR_LO is the low half of DUR (R35). -/
theorem readReg_durLo (s : State) : s.readReg .durLo = BitVec.ofNat 32 s.dur.toNat := rfl

/-- DUR_HI is the high half of DUR (R35). -/
theorem readReg_durHi (s : State) : s.readReg .durHi = BitVec.ofNat 32 (s.dur.toNat / 2 ^ 32) :=
  congrArg (BitVec.ofNat 32) (Nat.shiftRight_eq_div_pow _ _)

/-- The single registers read as R27 lists them. -/
theorem named_register_reads {s : State} {off : Nat} {v : Word}
    (h : (off, v) ∈ [(0x040, 0), (0x044, s.status.word), (0x048, s.errCmd), (0x04C, s.ckAcc.setWidth 32),
       (0x050, s.crcAcc), (0x054, s.crcAcc ^^^ 0xFFFFFFFF#32), (0x058, s.frmLen),
       (0x05C, BitVec.ofNat 32 s.dur.toNat), (0x060, BitVec.ofNat 32 (s.dur.toNat / 2 ^ 32)),
       (0x064, s.ts1), (0x068, s.ts2), (0x06C, s.drops), (0x070, s.consec), (0x074, s.maxConsec),
       (0x078, s.maxBt.setWidth 32), (0x07C, s.maxBrt.setWidth 32)]) :
    ∃ r, registerAt off = some r ∧ off % 4 = 0 ∧ s.readReg r = v := by
  rw [← readReg_durLo, ← readReg_durHi] at h
  simp only [List.mem_cons, Prod.mk.injEq, List.not_mem_nil, or_false] at h
  rcases h with h | h | h | h | h | h | h | h | h | h | h | h | h | h | h | h <;> obtain ⟨rfl, rfl⟩ := h <;>
    exact ⟨_, rfl, rfl, rfl⟩

/-- Settles O18: each row of the map is a register at an aligned offset, and `step_read32` reads it. -/
theorem hostRegisterReads : Obligations.HostRegisterReads := by
  intro s rest off v hp h
  obtain ⟨r, hr, ha, rfl⟩ : ∃ r, registerAt off = some r ∧ off % 4 = 0 ∧ s.readReg r = v := by
    rcases h with ⟨r, rfl, rfl⟩ | ⟨ch, rfl, rfl⟩ | ⟨ch, rfl, rfl⟩ | h
    · exact ⟨_, registerAt_x r, by omega, onPort_word _⟩
    · exact ⟨_, registerAt_total ch, by omega, onPort_word _⟩
    · exact ⟨_, registerAt_snap ch, by omega, rfl⟩
    · exact named_register_reads h
  exact step_read32 hp hr ha

/-- Settles O19: the written register is looked up in the map, and `writeReg` stores or ignores the value. -/
theorem hostRegisterWrites : Obligations.HostRegisterWrites := by
  intro s rest off v hp
  refine ⟨?x, ?ckAcc, ?crcAcc, ?readOnly⟩
  case x =>
    rintro r rfl
    refine ⟨_, step_write32 hp (registerAt_x r) (by omega), rfl, fun q => ?_⟩
    rw [State.setX_getX, zext_word]
    rfl
  case ckAcc =>
    rintro rfl
    rw [step_write32 hp (r := .ckAcc) rfl rfl, writeReg]
    congr 2
    apply BitVec.eq_of_toNat_eq
    simp [BitVec.extractLsb'_toNat]
  case crcAcc =>
    rintro rfl
    exact step_write32 hp (r := .crcAcc) rfl rfl
  case readOnly =>
    intro h
    obtain ⟨r, hr, hro, ha⟩ : ∃ r, registerAt off = some r ∧ r.readOnly = true ∧ off % 4 = 0 := by
      rcases h with h | ⟨hlo, hhi, ha⟩
      · exact readOnly_of_mem h
      · obtain ⟨r, hr, hro⟩ := readOnly_of_counter hlo hhi ha
        exact ⟨r, hr, hro, ha⟩
    rw [step_write32 hp hr ha, writeReg_of_readOnly hro]

/-! ### Accesses no rule defines (U1) -/

theorem step_of_idle {s : State} (h : s.pending = []) : step s = .next s := by
  simp [step, hostStep, h]

/-- A 32-bit read or write is a register access. -/
theorem step_registerAccess {s : State} {rest : List HostEvent} {off : Nat} {v : Word}
    (h : s.pending = .read32 off :: rest ∨ s.pending = .write32 off v :: rest) :
    ∃ k, step s = registerAccess off k := by
  rcases h with hp | hp <;> exact ⟨_, by rw [step_cons hp, performEvent]⟩

/-- A single-byte read or write is a byte access. -/
theorem step_byteAccess {s : State} {rest : List HostEvent} {off : Nat} {b : Byte}
    (h : s.pending = .read8 off :: rest ∨ s.pending = .write8 off b :: rest) :
    ∃ k, step s = byteAccess off k := by
  rcases h with hp | hp <;> exact ⟨_, by rw [step_cons hp, performEvent]⟩

theorem step_otherSize {s : State} {rest : List HostEvent} {off : Nat} (hp : s.pending = .otherSize off :: rest) :
    step s = if 0x2000 ≤ off then .fault (.outsideWindow off) else .refused (.accessShape off) :=
  step_cons hp

/-- Settles O21: each event is one of three access forms, and each range of offsets one branch of that form. -/
theorem undefinedAccessesStop : Obligations.UndefinedAccessesStop := by
  refine ⟨fun s => step_of_idle, ?window, ?register, ?byte⟩
  case window =>
    intro s rest off v b h
    have forms : (∃ k, step s = registerAccess off k) ∨ (∃ k, step s = byteAccess off k) ∨
        s.pending = .otherSize off :: rest := by
      rcases h with hp | hp | hp | hp | hp
      · exact .inl (step_registerAccess (v := v) (.inl hp))
      · exact .inl (step_registerAccess (.inr hp))
      · exact .inr (.inl (step_byteAccess (b := b) (.inl hp)))
      · exact .inr (.inl (step_byteAccess (.inr hp)))
      · exact .inr (.inr hp)
    refine ⟨fun hoff => ?_, fun hp hoff => ?_, fun hne hlo hhi => ?_⟩
    · rcases forms with ⟨k, hk⟩ | ⟨k, hk⟩ | hp
      · rw [hk, registerAccess_outside k hoff]
      · rw [hk, byteAccess_outside k hoff]
      · rw [step_otherSize hp, if_pos hoff]
    · rw [step_otherSize hp, if_neg (Nat.not_le.mpr hoff)]
    · rcases forms with ⟨k, hk⟩ | ⟨k, hk⟩ | hp
      · rw [hk, registerAccess_past_buf k hlo hhi]
      · rw [hk, byteAccess_past_buf k hlo hhi]
      · exact absurd hp hne
  case register =>
    intro s rest off v h
    obtain ⟨k, hk⟩ := step_registerAccess h
    rw [hk]
    exact ⟨registerAccess_reserved k, registerAccess_shape k⟩
  case byte =>
    intro s rest off b h hoff
    obtain ⟨k, hk⟩ := step_byteAccess h
    rw [hk, byteAccess_shape k hoff]

/-! ### Reset (R44, R45) -/

theorem Status.word_reset : Status.reset.word = 0 := by decide

/-- CRCOUT reads 0 after reset (R45). -/
theorem crcFinish_init : crcFinish Config.crcInit = 0 := by decide

@[simp] theorem State.hardReset_getX (s : State) (r : Reg) : s.hardReset.getX r = 0 :=
  Vector.getElem_replicate r.isLt

/-- After a hardware reset every byte of BUF is a free byte of the new reset (U2). -/
@[simp] theorem State.hardReset_byte (s : State) (a : Nat) :
    s.hardReset.byte a = Config.bufAtReset (s.resets + 1) a := rfl

/-- Settles O7: BUF lists nothing, and LASTERR, DROPFAIL and ERRLATCH are clear. -/
theorem resetMeetsInvariant : Obligations.ResetMeetsInvariant :=
  ⟨Memory.wf_reset, by decide, by decide, by decide, by decide, by decide⟩

/-- Settles O8: the event leads to `State.hardReset`, read register by register. -/
theorem hardResetValues : Obligations.HardResetValues := by
  intro s rest hp
  refine ⟨State.hardReset { s with pending := rest }, step_cons hp, State.hardReset_getX _, Status.word_reset,
    rfl, rfl, rfl, crcFinish_init, rfl, rfl, rfl, rfl, rfl, rfl, rfl, rfl, rfl, fun ch => ?_,
    State.hardReset_byte _, rfl⟩
  exact ⟨Vector.getElem_replicate ch.isLt, Vector.getElem_replicate ch.isLt⟩

end Sys2Proof.Machine
end

section
/-! A command word is decoded by its format (spec/30_encoding.md R91, R94, R95): each format reads back the operands it was
built from, so decoding undoes encoding. Settles O5. -/

namespace Sys2Proof.Machine

/-! ### One lemma per format: the operands are read back (R91) -/

theorem fits12_iff {n : Nat} : fits12 n = true ↔ n < 4096 := decide_eq_true_iff

theorem fits8_iff {n : Nat} : fits8 n = true ↔ n < 256 := decide_eq_true_iff

theorem ifZero_of_eq_zero {bits : Nat} (h : bits = 0) (i : Instr) : ifZero bits i = .ok i := if_pos h

theorem formatN_wordOf (op : Nat) (i : Instr) : formatN (wordOf op 0) i = .ok i := by
  refine ifZero_of_eq_zero ?_ i
  simp only [field, wordOf, BitVec.toNat_ofNat]
  omega

theorem immField_wordOf (op : Nat) (imm : Byte) : immField (wordOf op imm.toNat) = imm := by
  apply BitVec.eq_of_toNat_eq
  have := imm.isLt
  simp only [immField, wordOf, BitVec.toNat_ofNat]
  omega

theorem formatI_wordOf (op : Nat) (imm : Byte) (mk : Byte → Instr) :
    formatI (wordOf op imm.toNat) mk = .ok (mk imm) := by
  have hz : field (wordOf op imm.toNat) 23 8 = 0 := by
    have := imm.isLt
    simp only [field, wordOf, BitVec.toNat_ofNat]
    omega
  rw [formatI, immField_wordOf, ifZero_of_eq_zero hz]

theorem formatR_wordOf (op : Nat) {off len : Nat} (h : (fits12 off && fits12 len) = true) (mk : Nat → Nat → Instr) :
    formatR (wordOf op (lowR off len)) mk = .ok (mk off len) := by
  rw [Bool.and_eq_true, fits12_iff, fits12_iff] at h
  have hoff : field (wordOf op (lowR off len)) 23 12 = off := by
    simp only [field, wordOf, lowR, BitVec.toNat_ofNat]
    omega
  have hlen : field (wordOf op (lowR off len)) 11 0 = len := by
    simp only [field, wordOf, lowR, BitVec.toNat_ofNat]
    omega
  rw [formatR, hoff, hlen]

theorem formatO_wordOf (op : Nat) {off : Nat} (h : fits12 off = true) (mk : Nat → Instr) :
    formatO (wordOf op (off % 4096)) mk = .ok (mk off) := by
  rw [fits12_iff] at h
  have hz : field (wordOf op (off % 4096)) 23 12 = 0 := by
    simp only [field, wordOf, BitVec.toNat_ofNat]
    omega
  have hoff : field (wordOf op (off % 4096)) 11 0 = off := by
    simp only [field, wordOf, BitVec.toNat_ofNat]
    omega
  rw [formatO, hoff, ifZero_of_eq_zero hz]

theorem formatM_wordOf (op : Nat) (r : Reg) {off : Nat} (h : fits12 off = true) (mk : Reg → Nat → Instr) :
    formatM (wordOf op (lowM r off)) mk = .ok (mk r off) := by
  rw [fits12_iff] at h
  have := r.val_lt
  have hz : field (wordOf op (lowM r off)) 19 12 = 0 := by
    simp only [field, wordOf, lowM, BitVec.toNat_ofNat]
    omega
  have hr : regField (wordOf op (lowM r off)) 20 = r := by
    simp only [Fin.ext_iff, regField, Config.nx, wordOf, lowM, BitVec.toNat_ofNat]
    omega
  have hoff : field (wordOf op (lowM r off)) 11 0 = off := by
    simp only [field, wordOf, lowM, BitVec.toNat_ofNat]
    omega
  rw [formatM, hr, hoff, ifZero_of_eq_zero hz]

/-- The register fields of format X, whichever of them the operation uses. -/
theorem regField_lowX (op : Nat) (rd ra rb : Reg) :
    regField (wordOf op (lowX rd ra rb)) 20 = rd ∧ regField (wordOf op (lowX rd ra rb)) 16 = ra ∧
      regField (wordOf op (lowX rd ra rb)) 12 = rb := by
  have := rd.val_lt
  have := ra.val_lt
  have := rb.val_lt
  simp only [Fin.ext_iff, regField, Config.nx, wordOf, lowX, BitVec.toNat_ofNat]
  omega

theorem formatX3_wordOf (op : Nat) (rd ra rb : Reg) (mk : Reg → Reg → Reg → Instr) :
    formatX3 (wordOf op (lowX rd ra rb)) mk = .ok (mk rd ra rb) := by
  obtain ⟨hrd, hra, hrb⟩ := regField_lowX op rd ra rb
  have hz : field (wordOf op (lowX rd ra rb)) 11 0 = 0 := by
    simp only [field, wordOf, lowX, BitVec.toNat_ofNat]
    omega
  rw [formatX3, hrd, hra, hrb, ifZero_of_eq_zero hz]

theorem formatX2_wordOf (op : Nat) (rd ra : Reg) (mk : Reg → Reg → Instr) :
    formatX2 (wordOf op (lowX rd ra 0)) mk = .ok (mk rd ra) := by
  obtain ⟨hrd, hra, -⟩ := regField_lowX op rd ra 0
  have hz : field (wordOf op (lowX rd ra 0)) 15 0 = 0 := by
    simp only [field, wordOf, lowX, Fin.val_zero, BitVec.toNat_ofNat]
    omega
  rw [formatX2, hrd, hra, ifZero_of_eq_zero hz]

theorem formatX1_wordOf (op : Nat) (ra : Reg) (mk : Reg → Instr) :
    formatX1 (wordOf op (lowX 0 ra 0)) mk = .ok (mk ra) := by
  obtain ⟨-, hra, -⟩ := regField_lowX op 0 ra 0
  have := ra.val_lt
  have hz : field (wordOf op (lowX 0 ra 0)) 23 20 + field (wordOf op (lowX 0 ra 0)) 15 0 = 0 := by
    simp only [field, wordOf, lowX, Fin.val_zero, BitVec.toNat_ofNat]
    omega
  rw [formatX1, hra, ifZero_of_eq_zero hz]

theorem formatC_wordOf (op : Nat) (ra : Reg) {ch : Nat} (h : fits8 ch = true) (mk : Reg → Nat → Instr) :
    formatC (wordOf op (lowC ra ch)) mk = .ok (mk ra ch) := by
  rw [fits8_iff] at h
  have := ra.val_lt
  have hz : field (wordOf op (lowC ra ch)) 23 20 + field (wordOf op (lowC ra ch)) 15 8 = 0 := by
    simp only [field, wordOf, lowC, BitVec.toNat_ofNat]
    omega
  have hra : regField (wordOf op (lowC ra ch)) 16 = ra := by
    simp only [Fin.ext_iff, regField, Config.nx, wordOf, lowC, BitVec.toNat_ofNat]
    omega
  have hch : field (wordOf op (lowC ra ch)) 7 0 = ch := by
    simp only [field, wordOf, lowC, BitVec.toNat_ofNat]
    omega
  rw [formatC, hra, hch, ifZero_of_eq_zero hz]

/-! ### Decoding undoes encoding -/

open Laws.OpcodeField in
/-- Bits 31:24 of every encoded word are the operation's opcode (R94), by the width of its low bits. -/
theorem field_encode (i : Instr) : field (encode i) 31 24 = opcode i := by
  cases i with
  | nop | clrerr | ckInit | crcInit | latchSet | durClr | diagReset =>
    exact field_wordOf _ _ (by decide) (by decide)
  | ckByte imm | crcByte imm => exact field_wordOf _ _ (by decide) (imm_lt imm)
  | ckFold off len | ckSum off len | ckSeal off len | ckVfy off len | crcFold off len | crcSum off len
  | crcSeal off len | crcVfy off len | fillZ off len | fillF off len =>
    exact field_wordOf _ _ (by decide) (lowR_lt off len)
  | aiGen off | aiVfy off | ucGen off | ucVfy off | mbxHdr off | mbxCmd off | mbxCmdz off | mbxUnhdr off
  | mbxRspv off | spiPack off | spiUnpack off | eesUnpack off | cycPack off | cycUnpack off =>
    exact field_wordOf _ _ (by decide) (lowO_lt off)
  | put8 r off | put16 r off | put32 r off | get8u r off | get8s r off | get16u r off | get16s r off | get32 r off =>
    exact field_wordOf _ _ (by decide) (lowM_lt r off)
  | diff32 rd ra rb | diff8 rd ra rb => exact field_wordOf _ _ (by decide) (lowX_lt rd ra rb)
  | durAcc ra | tsInit ra => exact field_wordOf _ _ (by decide) (lowX_lt 0 ra 0)
  | tsStep rd ra => exact field_wordOf _ _ (by decide) (lowX_lt rd ra 0)
  | acc8 ra ch | snap8 ra ch => exact field_wordOf _ _ (by decide) (lowC_lt ra ch)

open Laws.OpcodeField (opcode) in
/-- The opcode selects the operation's format, and the format reads the operands back. -/
theorem decode_encode {i : Instr} (h : i.wf = true) : decode (encode i) = .ok i := by
  unfold decode
  cases i <;> simp only [field_encode, opcode]
  case nop | clrerr | ckInit | crcInit | latchSet | durClr | diagReset => exact formatN_wordOf _ _
  case ckByte imm | crcByte imm => exact formatI_wordOf _ imm _
  case ckFold | ckSum | ckSeal | ckVfy | crcFold | crcSum | crcSeal | crcVfy | fillZ | fillF =>
    exact formatR_wordOf _ h _
  case aiGen | aiVfy | ucGen | ucVfy | mbxHdr | mbxCmd | mbxCmdz | mbxUnhdr | mbxRspv | spiPack | spiUnpack
    | eesUnpack | cycPack | cycUnpack => exact formatO_wordOf _ h _
  case put8 r _ | put16 r _ | put32 r _ | get8u r _ | get8s r _ | get16u r _ | get16s r _ | get32 r _ =>
    exact formatM_wordOf _ r h _
  case diff32 rd ra rb | diff8 rd ra rb => exact formatX3_wordOf _ rd ra rb _
  case durAcc ra | tsInit ra => exact formatX1_wordOf _ ra _
  case tsStep rd ra => exact formatX2_wordOf _ rd ra _
  case acc8 ra _ | snap8 ra _ => exact formatC_wordOf _ ra h _

/-! ### The step that writes a command word (R29, R95) -/

theorem runCommand_of_decode {w : Word} {i : Instr} (h : decode w = .ok i) (s : State) :
    runCommand w s = exec i s := by
  simp [runCommand, h]

/-- The write of a word that decodes to `i` performs `i`. -/
theorem step_of_decode {s : State} {w : Word} {rest : List HostEvent} {i : Instr}
    (hp : s.pending = .write32 0x040 w :: rest) (hd : decode w = .ok i) :
    step s = exec i { s with pending := rest } := by
  rw [step_cons hp, performEvent_cmd, runCommand_of_decode hd]

/-- A loaded command word is the write of that word before the host's other accesses. -/
theorem withFetchWord_pending (s : State) (w : Word) :
    (s.withFetchWord 32 w.toNat).pending = .write32 0x040 w :: s.pending := by
  rw [State.withFetchWord, Nat.mod_eq_of_lt w.isLt, BitVec.ofNat_toNat, BitVec.setWidth_eq, cmdOffset]

/-- Settles O5: the second clause is the first at the word `encode i`, which decodes to `i`. -/
theorem stepRunsTheDecodedOperation : Obligations.StepRunsTheDecodedOperation :=
  ⟨fun _ _ _ _ => step_of_decode, fun s i hi => step_of_decode (withFetchWord_pending s (encode i)) (decode_encode hi)⟩

end Sys2Proof.Machine
end

section
/-! What an operation can write, said once (spec/10_state.md R22, R26, R34 to R39, spec/60_exceptions.md R284 to R286):
`Effect` is what it may change before it ends, `Completes` adds the ending, and `exec_completes` places every operation
there. Settles O13, O15 and O11. -/

namespace Sys2Proof.Machine

open Safety

/-! ### The effect of an operation -/

/-- The X registers `x` differ from those of `s` only where operation `i` may write (R22). -/
def KeepsX (s : State) (i : Instr) (x : Vector XWord Config.nx) : Prop :=
  ∀ r : Reg, r ∉ xWritten i → x[r] = s.getX r

theorem KeepsX.refl (s : State) (i : Instr) : KeepsX s i s.x := fun _ _ => rfl

theorem KeepsX.set {s : State} {i : Instr} {x : Vector XWord Config.nx} (hx : KeepsX s i x) {rd : Reg}
    (hrd : rd ∈ xWritten i) (v : XWord) : KeepsX s i (x.set rd v) := by
  intro r hr
  have hne : rd.val ≠ r.val := fun h => hr (Fin.ext h ▸ hrd)
  rw [← hx r hr, Fin.getElem_fin, Fin.getElem_fin, Vector.getElem_set_ne _ _ hne]

/-- CYC.UNPACK may write every X register (R205). -/
theorem KeepsX.cycUnpack (s : State) (off : Nat) (x : Vector XWord Config.nx) : KeepsX s (.cycUnpack off) x := by
  have hall : ∀ r : Reg, r ∈ ([0, 1, 2, 3, 4, 5, 6, 7, 8, 9, 10, 11, 12, 13, 14, 15] : List Reg) := by decide
  exact fun r hr => absurd (hall r) hr

/-- What operation `i` can have made of `s` when it comes to its ending: an upper bound that names the pieces of state
it may write and leaves the written values and BUF open. No effect touches OK, LASTERR, ERRSEEN or ERRCMD, which belong
to the ending. -/
inductive Effect (s : State) : Instr → State → Prop
  /-- At most stores to BUF. -/
  | store {i : Instr} (m : List Host.Cell) : Effect s i { s with buf := m }
  | checksum {i : Instr} (hi : writesCkAcc i = true) (a : Byte) (m : List Host.Cell) :
      Effect s i { s with ckAcc := a, buf := m }
  | crc {i : Instr} (hi : writesCrcAcc i = true) (a : Word) (m : List Host.Cell) :
      Effect s i { s with crcAcc := a, buf := m }
  | aiVfy (off : Nat) (a : Word) (k256 k264 : Bool) :
      Effect s (.aiVfy off)
        { s with crcAcc := a, status := { s.status with crc256Ok := k256, crc264Ok := k264 } }
  | frame {i : Instr} (hi : writesFrmLen i = true) (n : Word) (m : List Host.Cell) :
      Effect s i { s with frmLen := n, buf := m }
  /-- CYC.PACK with the reset request (R201). -/
  | resetCommand {off : Nat} (hi : isResetCommand s (.cycPack off) = true) (n : Word) (m : List Host.Cell) :
      Effect s (.cycPack off)
        { s with frmLen := n, buf := m
                 status := { s.status with errLatch := false, dropFail := false, jump := false } }
  | load {i : Instr} {x : Vector XWord Config.nx} (hx : KeepsX s i x) : Effect s i { s with x := x }
  | cycUnpack (off : Nat) (x : Vector XWord Config.nx) (a : Byte) {bt brt : Half}
      (hbt : s.maxBt.toNat ≤ bt.toNat) (hbrt : s.maxBrt.toNat ≤ brt.toNat) :
      Effect s (.cycUnpack off) { s with x := x, ckAcc := a, maxBt := bt, maxBrt := brt }
  | latchSet : Effect s .latchSet { s with status := { s.status with errLatch := true } }
  | delta {i : Instr} (hi : writesNeg i = true) {x : Vector XWord Config.nx} (hx : KeepsX s i x) (wrap neg : Bool) :
      Effect s i { s with x := x, status := { s.status with wrap := wrap, neg := neg } }
  | duration {i : Instr} (hi : writesDur i = true) (d : DWord) : Effect s i { s with dur := d }
  | tsInit (ra : Reg) (t : Word) : Effect s (.tsInit ra) { s with ts1 := t, ts2 := t, consec := 0 }
  /-- TS.STEP sets the sticky flags JUMP, DROPFAIL and ERRLATCH and clears none (R231, R234, R235). -/
  | tsStep {rd ra : Reg} {x : Vector XWord Config.nx} (hx : KeepsX s (.tsStep rd ra) x)
      (t1 t2 drops consec maxConsec : Word) (wrap neg dup : Bool) {jump dropFail errLatch : Bool}
      (hjump : s.status.jump = true → jump = true) (hdrop : s.status.dropFail = true → dropFail = true)
      (hlatch : s.status.errLatch = true → errLatch = true) :
      Effect s (.tsStep rd ra)
        { s with x := x, ts1 := t1, ts2 := t2, drops := drops, consec := consec, maxConsec := maxConsec
                 status := { s.status with wrap := wrap, neg := neg, dup := dup, jump := jump
                                           dropFail := dropFail, errLatch := errLatch } }
  | acc8 (ra : Reg) (ch : Nat) (wrap : Bool) (total : Vector TotalWord Config.nch) (snap : Vector Byte Config.nch) :
      Effect s (.acc8 ra ch) { s with status := { s.status with wrap := wrap }, total := total, snap := snap }
  | snap8 (ra : Reg) (ch : Nat) (snap : Vector Byte Config.nch) : Effect s (.snap8 ra ch) { s with snap := snap }
  | diagReset :
      Effect s .diagReset
        { s with total := Vector.replicate _ 0, drops := 0, maxConsec := 0, maxBt := 0, maxBrt := 0 }

/-- How operation `i` can end from `s`: in a refusal, which has no effect (R284), or after its effect in success or, if
it writes OK, in OK or a verdict (R285, R286). CLRERR succeeds and clears ERRSEEN (R271). -/
inductive Completes (s : State) : Instr → State → Prop
  | refuse {i : Instr} (e : ECode) : Completes s i (s.refuse e (encode i))
  | succeed {i : Instr} {u : State} (hok : writesOk i = false) (hclr : i ≠ .clrerr) (hu : Effect s i u) :
      Completes s i u.succeed
  | clrerr : Completes s .clrerr { s with status := { s.status with errSeen := false } }.succeed
  | pass {i : Instr} {u : State} (hok : writesOk i = true) (hu : Effect s i u) : Completes s i u.pass
  | verdict {i : Instr} {u : State} (v : VCode) (hok : writesOk i = true) (hu : Effect s i u) :
      Completes s i (u.verdict v)

theorem Effect.refl (s : State) (i : Instr) : Effect s i s := .store s.buf

theorem Completes.judge {s u : State} {i : Instr} (hok : writesOk i = true) (hu : Effect s i u) (bad : Bool)
    (v : VCode) : Completes s i (u.judge bad v) := by
  rcases u.judge_cases bad v with ⟨_, h⟩ | ⟨_, h⟩ <;> rw [h]
  · exact .verdict v hok hu
  · exact .pass hok hu

/-! ### Checks that end in no verdict -/

/-- The check, when it fails, refuses. -/
def OnlyRefuses (c : Option Stop) : Prop := ∀ v, c ≠ some (.verdict v)

theorem onlyRefuses_rangeCheck (a n : Nat) : OnlyRefuses (rangeCheck a n) := by
  intro v
  rw [rangeCheck]
  split <;> simp

theorem onlyRefuses_fieldCheck (bad : Bool) : OnlyRefuses (fieldCheck bad) := by
  intro v
  rw [fieldCheck]
  split <;> simp

theorem OnlyRefuses.or {c d : Option Stop} (hc : OnlyRefuses c) (hd : OnlyRefuses d) : OnlyRefuses (c.or d) := by
  cases c with
  | none => exact hd
  | some st => exact hc

/-- An operation with leading checks completes when its effect does; only one that writes OK may check with a verdict. -/
theorem attempt_completes {i : Instr} {s : State} {c : Option Stop} {act : Unit → State}
    (hc : OnlyRefuses c ∨ writesOk i = true) (hact : Completes s i (act ())) :
    ∃ t, attempt i s c act = .next t ∧ Completes s i t := by
  rcases c with _ | e | v
  case none => exact ⟨_, attempt_none i s act, hact⟩
  case some.refuse => exact ⟨_, attempt_refuse i s act e, .refuse e⟩
  case some.verdict =>
    have hok : writesOk i = true := hc.resolve_left fun h => h v rfl
    exact ⟨_, attempt_verdict i s act v, .verdict v hok (.refl s i)⟩

theorem attempt_range_completes {i : Instr} {s : State} {off n : Nat} {act : Unit → State}
    (hact : Completes s i (act ())) : ∃ t, attempt i s (rangeCheck off n) act = .next t ∧ Completes s i t :=
  attempt_completes (.inl (onlyRefuses_rangeCheck off n)) hact

/-! ### The updates that branch -/

/-- `u` is `s` but for bytes of BUF. -/
def Stores (s u : State) : Prop := ∃ m, u = { s with buf := m }

theorem Stores.refl (s : State) : Stores s s := ⟨s.buf, rfl⟩

theorem Stores.trans {s u t : State} (h : Stores s u) (h' : Stores u t) : Stores s t := by
  obtain ⟨m, rfl⟩ := h
  obtain ⟨m', rfl⟩ := h'
  exact ⟨m', rfl⟩

theorem Stores.store (s : State) (a : Nat) (bs : List Byte) : Stores s (s.store a bs) := ⟨_, rfl⟩

theorem Stores.sealCk (s : State) (off n : Nat) : Stores s (s.sealCk off n) := ⟨_, rfl⟩

theorem Stores.putHeader (s : State) (off : Nat) : Stores s (s.putHeader off) :=
  ((Stores.store s _ _).trans (Stores.store _ _ _)).trans (Stores.sealCk _ _ _)

theorem Stores.sealData (s : State) (off : Nat) : Stores s (s.sealData off) := by
  unfold State.sealData
  split
  · exact Stores.sealCk s _ _
  · exact Stores.refl s

theorem Stores.zeroData (s : State) (off : Nat) : Stores s (s.zeroData off) := by
  unfold State.zeroData
  split
  · exact Stores.store s _ _
  · exact Stores.refl s

/-- A frame builder that accepts its operands stores bytes and sets FRMLEN (R34). -/
theorem Stores.frame {s u : State} {i : Instr} (hu : Stores s u) (hi : writesFrmLen i = true) (n : Word) :
    Effect s i { u with frmLen := n } := by
  obtain ⟨m, rfl⟩ := hu
  exact .frame hi n m

theorem State.exists_sealCrc_eq (s : State) (off n : Nat) :
    ∃ a m, s.sealCrc off n = { s with crcAcc := a, buf := m } := ⟨_, _, rfl⟩

theorem State.countDrop_eq (s : State) (dup : Bool) :
    s.countDrop dup = { s with drops := (s.countDrop dup).drops, consec := (s.countDrop dup).consec
                               maxConsec := (s.countDrop dup).maxConsec } := by
  cases dup <;> rfl

/-- The model reads the reset request as bit 1 of X3, the claims by division (R201). -/
theorem State.resetRequest_eq (s : State) (off : Nat) : s.resetRequest = isResetCommand s (.cycPack off) := by
  simp only [State.resetRequest, isResetCommand, BitVec.getLsbD, Nat.testBit_eq_decide_div_mod_eq, pow_one,
    beq_eq_decide]

theorem State.applyReset_of_request {s : State} (h : s.resetRequest = true) :
    s.applyReset = { s with status := { s.status with errLatch := false, dropFail := false, jump := false } } :=
  if_pos h

theorem State.applyReset_of_no_request {s : State} (h : s.resetRequest = false) : s.applyReset = s :=
  if_neg (by rw [h]; decide)

theorem le_maxU {n : Nat} (a b : BitVec n) : a.toNat ≤ (maxU a b).toNat := by
  unfold maxU
  split
  · next h => exact Nat.le_of_lt (BitVec.ult_iff_lt.mp h)
  · exact Nat.le_refl _

/-! ### Every operation completes -/

theorem execMbxUnhdr_completes (off : Nat) (s : State) :
    ∃ t, execMbxUnhdr off s = .next t ∧ Completes s (.mbxUnhdr off) t := by
  refine attempt_completes (.inr rfl) ?_
  have hx : Effect s (.mbxUnhdr off) (s.deliverHeader (s.read16 off) (s.read16 (off + 2))) :=
    .load (((((KeepsX.refl s _).set (by simp [xWritten]) _).set (by simp [xWritten]) _).set
      (by simp [xWritten]) _).set (by simp [xWritten]) _)
  unfold State.judgeHeader
  split
  · exact .verdict _ rfl hx
  · exact .judge rfl hx _ _

theorem execUcVfy_completes (off : Nat) (s : State) :
    ∃ t, execUcVfy off s = .next t ∧ Completes s (.ucVfy off) t := by
  refine attempt_range_completes ?_
  dsimp only
  split
  · exact .judge rfl (.crc rfl _ s.buf) _ _
  · exact .verdict _ rfl (.crc rfl _ s.buf)

theorem execCycPack_completes (off : Nat) (s : State) :
    ∃ t, execCycPack off s = .next t ∧ Completes s (.cycPack off) t := by
  refine attempt_completes (.inl ((onlyRefuses_rangeCheck _ _).or (onlyRefuses_fieldCheck _))) ?_
  refine .succeed rfl nofun ?_
  have hu := (Stores.store s.applyReset off s.applyReset.cycleBody).trans (Stores.sealCk _ off (Config.cycCmdSize - 1))
  cases hr : s.resetRequest with
  | true =>
    obtain ⟨m, hm⟩ := hu
    rw [hm, State.applyReset_of_request hr]
    exact .resetCommand (by rw [← State.resetRequest_eq, hr]) _ m
  | false =>
    rw [State.applyReset_of_no_request hr] at hu ⊢
    exact hu.frame rfl _

theorem execCycUnpack_completes (off : Nat) (s : State) :
    ∃ t, execCycUnpack off s = .next t ∧ Completes s (.cycUnpack off) t := by
  refine attempt_range_completes ?_
  dsimp only [State.foldRange, State.setXs]
  split
  · exact .verdict _ rfl (.checksum rfl _ s.buf)
  · exact .pass rfl (.cycUnpack off _ _ (le_maxU _ _) (le_maxU _ _))

theorem execTsStep_completes (rd ra : Reg) (s : State) :
    ∃ t, execTsStep rd ra s = .next t ∧ Completes s (.tsStep rd ra) t := by
  have hx (v : XWord) : KeepsX s (.tsStep rd ra) (s.x.set rd v) :=
    (KeepsX.refl s _).set (List.mem_singleton_self rd) v
  refine ⟨_, rfl, ?_⟩
  rw [State.countDrop_eq]
  unfold State.judgeTimestamp
  split
  · exact .verdict _ rfl (.tsStep (hx _) _ _ _ _ _ _ _ _ id (fun _ => rfl) (fun _ => rfl))
  · exact .pass rfl (.tsStep (hx _) _ _ _ _ _ _ _ _ (fun h => by rw [← Bool.true_or (isJump _), ← h]; rfl) id id)

theorem execAcc8_completes (ra : Reg) (ch : Nat) (s : State) :
    ∃ t, execAcc8 ra ch s = .next t ∧ Completes s (.acc8 ra ch) t := by
  unfold execAcc8
  cases channel? ch with
  | none => exact ⟨_, rfl, .refuse .chan⟩
  | some c => exact ⟨_, rfl, .succeed rfl nofun (.acc8 ra ch _ _ _)⟩

theorem execSnap8_completes (ra : Reg) (ch : Nat) (s : State) :
    ∃ t, execSnap8 ra ch s = .next t ∧ Completes s (.snap8 ra ch) t := by
  unfold execSnap8
  cases channel? ch with
  | none => exact ⟨_, rfl, .refuse .chan⟩
  | some c => exact ⟨_, rfl, .succeed rfl nofun (.snap8 ra ch _)⟩

/-- Every operation has a next state, and reaches it by its effect and one ending (R280). -/
theorem exec_completes (i : Instr) (s : State) : ∃ t, exec i s = .next t ∧ Completes s i t := by
  have keep : KeepsX s i s.x := .refl s i
  unfold exec
  cases i with
  | nop => exact ⟨_, rfl, .succeed rfl nofun (.refl s _)⟩
  | clrerr => exact ⟨_, rfl, .clrerr⟩
  | ckInit | ckByte => exact ⟨_, rfl, .succeed rfl nofun (.checksum rfl _ s.buf)⟩
  | ckFold | ckSum =>
    refine attempt_range_completes ?_
    exact .succeed rfl nofun (.checksum rfl _ s.buf)
  | ckSeal =>
    refine attempt_range_completes ?_
    exact .succeed rfl nofun (.checksum rfl _ _)
  | ckVfy =>
    refine attempt_range_completes ?_
    exact .judge rfl (.checksum rfl _ s.buf) _ _
  | crcInit | crcByte => exact ⟨_, rfl, .succeed rfl nofun (.crc rfl _ s.buf)⟩
  | crcFold | crcSum =>
    refine attempt_range_completes ?_
    exact .succeed rfl nofun (.crc rfl _ s.buf)
  | aiGen off =>
    refine attempt_range_completes ?_
    obtain ⟨a, m, h⟩ := s.exists_sealCrc_eq off Config.aiCrc256Off
    rw [h]
    exact .succeed rfl nofun (.crc rfl _ _)
  | crcSeal | ucGen =>
    refine attempt_range_completes ?_
    exact .succeed rfl nofun (.crc rfl _ _)
  | crcVfy =>
    refine attempt_range_completes ?_
    exact .judge rfl (.crc rfl _ s.buf) _ _
  | aiVfy off =>
    refine attempt_range_completes ?_
    exact .judge rfl (.aiVfy off _ _ _) _ _
  | ucVfy off => exact execUcVfy_completes off s
  | mbxHdr off =>
    refine attempt_completes (.inr (by rfl)) ?_
    exact .pass rfl ((Stores.putHeader s off).frame rfl _)
  | mbxCmd off =>
    refine attempt_completes (.inr (by rfl)) ?_
    exact .pass rfl (((Stores.putHeader s off).trans (.sealData _ off)).frame rfl _)
  | mbxCmdz off =>
    refine attempt_completes (.inr (by rfl)) ?_
    exact .pass rfl ((((Stores.putHeader s off).trans (.zeroData _ off)).trans (.sealData _ off)).frame rfl _)
  | mbxUnhdr off => exact execMbxUnhdr_completes off s
  | mbxRspv =>
    refine attempt_completes (.inr (by rfl)) ?_
    exact .judge rfl (.checksum rfl _ s.buf) _ _
  | spiPack =>
    refine attempt_completes (.inl ((onlyRefuses_rangeCheck _ _).or (onlyRefuses_fieldCheck _))) ?_
    exact .succeed rfl nofun (.frame rfl _ _)
  | spiUnpack =>
    refine attempt_range_completes ?_
    exact .succeed rfl nofun
      (.load (((keep.set (by simp [xWritten]) _).set (by simp [xWritten]) _).set (by simp [xWritten]) _))
  | eesUnpack =>
    refine attempt_range_completes ?_
    exact .succeed rfl nofun (.load (keep.set (by simp [xWritten]) _))
  | cycPack off => exact execCycPack_completes off s
  | cycUnpack off => exact execCycUnpack_completes off s
  | latchSet => exact ⟨_, rfl, .succeed rfl nofun .latchSet⟩
  | put8 | put16 | put32 | fillZ | fillF =>
    refine attempt_range_completes ?_
    exact .succeed rfl nofun (.store _)
  | get8u r | get8s r | get16u r | get16s r | get32 r =>
    refine attempt_range_completes ?_
    exact .succeed rfl nofun (.load (keep.set (List.mem_singleton_self r) _))
  | diff32 rd | diff8 rd =>
    exact ⟨_, rfl, .succeed rfl nofun (.delta rfl (keep.set (List.mem_singleton_self rd) _) _ _)⟩
  | durAcc | durClr => exact ⟨_, rfl, .succeed rfl nofun (.duration rfl _)⟩
  | tsInit ra => exact ⟨_, rfl, .succeed rfl nofun (.tsInit ra _)⟩
  | tsStep rd ra => exact execTsStep_completes rd ra s
  | acc8 ra ch => exact execAcc8_completes ra ch s
  | snap8 ra ch => exact execSnap8_completes ra ch s
  | diagReset => exact ⟨_, rfl, .succeed rfl nofun .diagReset⟩

/-- The inversion of an operation: its next state is one it completes in. -/
theorem completes_of_exec {i : Instr} {s t : State} (h : exec i s = .next t) : Completes s i t := by
  obtain ⟨t', ht', hc⟩ := exec_completes i s
  rw [h] at ht'
  cases ht'
  exact hc

/-- An ending writes STATUS and ERRCMD alone, so every other register is as the effect left it. -/
theorem Completes.registers {s t : State} {i : Instr} (h : Completes s i t) :
    ∃ u, Effect s i u ∧ t = { u with status := t.status, errCmd := t.errCmd } := by
  cases h with
  | refuse | clrerr => exact ⟨s, .refl s _, rfl⟩
  | succeed _ _ hu | pass _ hu | verdict _ _ hu => exact ⟨_, hu, rfl⟩

/-! ### X registers (R22) -/

theorem Effect.getX {s u : State} {i : Instr} (h : Effect s i u) {r : Reg} (hr : r ∉ xWritten i) :
    u.getX r = s.getX r := by
  cases h with
  | load hx | delta _ hx | tsStep hx => exact hx r hr
  | cycUnpack off x => exact KeepsX.cycUnpack s off x r hr
  | _ => rfl

/-- Settles O13: an ending writes no X register, and an effect only the listed ones. -/
theorem xRegistersAreWrittenOnlyAsListed : Obligations.XRegistersAreWrittenOnlyAsListed := by
  intro i s t r h hr
  obtain ⟨u, hu, ht⟩ := (completes_of_exec h).registers
  rw [ht]
  exact hu.getX hr

/-! ### Special registers (R34 to R39, R326) -/

section
variable {s u : State} {i : Instr}

theorem Effect.ckAcc (h : Effect s i u) (hi : writesCkAcc i = false) : u.ckAcc = s.ckAcc := by
  cases h with
  | checksum hw => simp [hi] at hw
  | cycUnpack => exact nomatch hi
  | _ => rfl

theorem Effect.crcAcc (h : Effect s i u) (hi : writesCrcAcc i = false) : u.crcAcc = s.crcAcc := by
  cases h with
  | crc hw => simp [hi] at hw
  | aiVfy => exact nomatch hi
  | _ => rfl

theorem Effect.frmLen (h : Effect s i u) (hi : writesFrmLen i = false) : u.frmLen = s.frmLen := by
  cases h with
  | frame hw => simp [hi] at hw
  | resetCommand => exact nomatch hi
  | _ => rfl

theorem Effect.dur (h : Effect s i u) (hi : writesDur i = false) : u.dur = s.dur := by
  cases h with
  | duration hw => simp [hi] at hw
  | _ => rfl

theorem Effect.timestamps (h : Effect s i u) (hi : writesTimestamps i = false) :
    u.ts1 = s.ts1 ∧ u.ts2 = s.ts2 ∧ u.consec = s.consec := by
  cases h with
  | tsInit | tsStep => exact nomatch hi
  | _ => exact ⟨rfl, rfl, rfl⟩

theorem Effect.drops (h : Effect s i u) (hi : isTsStep i = false) (hd : i ≠ .diagReset) :
    u.drops = s.drops ∧ u.maxConsec = s.maxConsec := by
  cases h with
  | tsStep => exact nomatch hi
  | diagReset => exact absurd rfl hd
  | _ => exact ⟨rfl, rfl⟩

theorem Effect.total (h : Effect s i u) (hi : writesTotal i = false) : u.total = s.total := by
  cases h with
  | acc8 | diagReset => exact nomatch hi
  | _ => rfl

theorem Effect.snap (h : Effect s i u) (hi : writesSnap i = false) : u.snap = s.snap := by
  cases h with
  | acc8 | snap8 => exact nomatch hi
  | _ => rfl

/-- The temperature maxima never decrease except by DIAG.RESET (R208). -/
theorem Effect.maxima_le (h : Effect s i u) (hd : i ≠ .diagReset) :
    s.maxBt.toNat ≤ u.maxBt.toNat ∧ s.maxBrt.toNat ≤ u.maxBrt.toNat := by
  cases h with
  | cycUnpack _ _ _ hbt hbrt => exact ⟨hbt, hbrt⟩
  | diagReset => exact absurd rfl hd
  | _ => exact ⟨Nat.le_refl _, Nat.le_refl _⟩

theorem Effect.maxima (h : Effect s i u) (hc : ∀ off, i ≠ .cycUnpack off) (hd : i ≠ .diagReset) :
    u.maxBt = s.maxBt ∧ u.maxBrt = s.maxBrt := by
  cases h with
  | cycUnpack off => exact absurd rfl (hc off)
  | diagReset => exact absurd rfl hd
  | _ => exact ⟨rfl, rfl⟩

/-- The model's own fields are no operation's. -/
theorem Effect.own (h : Effect s i u) : u.resets = s.resets ∧ u.pending = s.pending ∧ u.answer = s.answer := by
  cases h <;> exact ⟨rfl, rfl, rfl⟩

end

/-- Settles O15: an ending writes none of these registers, and each is one lemma about `Effect`. -/
theorem specialRegistersAreWrittenOnlyAsListed : Obligations.SpecialRegistersAreWrittenOnlyAsListed := by
  intro i s t h
  obtain ⟨u, hu, ht⟩ := (completes_of_exec h).registers
  rw [ht]
  exact ⟨hu.ckAcc, hu.crcAcc, hu.frmLen, hu.dur, hu.timestamps, hu.drops, hu.total, hu.snap, hu.maxima_le, hu.maxima,
    hu.own⟩

/-! ### STATUS (R26) -/

theorem ECode.isRefusal_code (e : ECode) : isRefusal e.code = true := by
  cases e <;> decide

theorem VCode.isRefusal_code (v : VCode) : isRefusal v.code = false := by
  cases v <;> decide

theorem VCode.code_ne_zero (v : VCode) : v.code ≠ 0 := by
  cases v <;> decide

section
variable {s u t : State} {i : Instr}

/-- OK and ERRSEEN belong to the ending. -/
theorem Effect.ok_errSeen (h : Effect s i u) : u.status.ok = s.status.ok ∧ u.status.errSeen = s.status.errSeen := by
  cases h <;> exact ⟨rfl, rfl⟩

theorem writesWrap_of_writesNeg (h : writesNeg i = true) : writesWrap i = true := by
  cases i with
  | acc8 => rfl
  | _ => exact h

theorem Effect.wrap (h : Effect s i u) (hi : writesWrap i = false) : u.status.wrap = s.status.wrap := by
  cases h with
  | delta hw =>
    have := writesWrap_of_writesNeg hw
    simp [hi] at this
  | tsStep | acc8 => exact nomatch hi
  | _ => rfl

theorem Effect.neg (h : Effect s i u) (hi : writesNeg i = false) : u.status.neg = s.status.neg := by
  cases h with
  | delta hw => simp [hi] at hw
  | tsStep => exact nomatch hi
  | _ => rfl

theorem Effect.dup (h : Effect s i u) (hi : isTsStep i = false) : u.status.dup = s.status.dup := by
  cases h with
  | tsStep => exact nomatch hi
  | _ => rfl

theorem Effect.crcFlags (h : Effect s i u) (hi : isAiVfy i = false) :
    u.status.crc256Ok = s.status.crc256Ok ∧ u.status.crc264Ok = s.status.crc264Ok := by
  cases h with
  | aiVfy => exact nomatch hi
  | _ => exact ⟨rfl, rfl⟩

/-- How an operation may change a sticky flag of the cycle: TS.STEP sets it, the reset command clears it (R201, R234,
R235). -/
def StickyChange (s : State) (i : Instr) (old new : Bool) : Prop :=
  new = old ∨ (new = true ∧ isTsStep i = true) ∨ (new = false ∧ isResetCommand s i = true)

theorem StickyChange.of_kept {old new : Bool} (hi : isTsStep i = true) (h : old = true → new = true) :
    StickyChange s i old new := by
  cases new with
  | true => exact .inr (.inl ⟨rfl, hi⟩)
  | false =>
    cases old with
    | false => exact .inl rfl
    | true => exact .inl (h rfl)

theorem Effect.jump (h : Effect s i u) : StickyChange s i s.status.jump u.status.jump := by
  cases h with
  | resetCommand hi => exact .inr (.inr ⟨rfl, hi⟩)
  | tsStep _ _ _ _ _ _ _ _ _ hjump => exact .of_kept rfl hjump
  | _ => exact .inl rfl

theorem Effect.dropFail (h : Effect s i u) : StickyChange s i s.status.dropFail u.status.dropFail := by
  cases h with
  | resetCommand hi => exact .inr (.inr ⟨rfl, hi⟩)
  | tsStep _ _ _ _ _ _ _ _ _ _ hdrop => exact .of_kept rfl hdrop
  | _ => exact .inl rfl

/-- Of STATUS, an ending writes OK, ERRSEEN and LASTERR alone. -/
theorem Completes.flags (h : Completes s i t) :
    ∃ u, Effect s i u ∧ t.status =
      { u.status with ok := t.status.ok, errSeen := t.status.errSeen, lastErr := t.status.lastErr } := by
  cases h with
  | refuse | clrerr => exact ⟨s, .refl s _, rfl⟩
  | succeed _ _ hu | pass _ hu | verdict _ _ hu => exact ⟨_, hu, rfl⟩

theorem writesOk_of_isResetCommand (h : isResetCommand s i = true) : writesOk i = false := by
  cases i with
  | cycPack => rfl
  | _ => exact nomatch h

/-- OK tells the ending of an operation that writes it, and stays with any other (R26, R285, R286). -/
theorem Completes.ok (h : Completes s i t) :
    t.status.ok = if writesOk i then
        (if isRefusal t.status.lastErr then s.status.ok else t.status.lastErr == 0) else s.status.ok := by
  cases h with
  | refuse e => simp [e.isRefusal_code]
  | succeed hok _ hu => simp [hok, hu.ok_errSeen]
  | clrerr => rfl
  | pass hok => simp [hok, isRefusal]
  | verdict v hok => simpa [hok, v.isRefusal_code] using v.code_ne_zero

/-- ERRSEEN is set by a refusal, cleared by CLRERR and kept by every other ending (R284, R271). -/
theorem Completes.errSeen (h : Completes s i t) :
    t.status.errSeen = if isRefusal t.status.lastErr then true
      else if i = .clrerr then false else s.status.errSeen := by
  cases h with
  | refuse e => simp [e.isRefusal_code]
  | succeed _ hclr hu => simp [hclr, hu.ok_errSeen, isRefusal]
  | clrerr => rfl
  | pass hok hu =>
    have hclr : i ≠ .clrerr := by rintro rfl; exact nomatch hok
    simp [hclr, hu.ok_errSeen, isRefusal]
  | verdict v hok hu =>
    have hclr : i ≠ .clrerr := by rintro rfl; exact nomatch hok
    simp [hclr, hu.ok_errSeen, v.isRefusal_code]

/-- A sticky flag that changed was set by TS.STEP or cleared by a reset command, which then succeeded. -/
theorem Completes.sticky (h : Completes s i t) (f : Status → Bool)
    (hf : ∀ st ok errSeen lastErr, f { st with ok := ok, errSeen := errSeen, lastErr := lastErr } = f st)
    (hchange : ∀ {u}, Effect s i u → StickyChange s i (f s.status) (f u.status)) (hne : f t.status ≠ f s.status) :
    if f t.status then isTsStep i = true else isResetCommand s i = true ∧ t.status.lastErr = 0 := by
  obtain ⟨u, hu, ht⟩ := h.flags
  have htu : f t.status = f u.status := by rw [ht, hf]
  rcases hchange hu with heq | ⟨hset, hi⟩ | ⟨hclear, hi⟩
  · exact absurd (htu.trans heq) hne
  · rw [htu, hset]
    exact hi
  · rw [htu, hclear]
    have hok := writesOk_of_isResetCommand hi
    cases h with
    | refuse => exact absurd (hf _ _ _ _) hne
    | succeed | clrerr => exact ⟨hi, rfl⟩
    | pass hw | verdict _ hw => simp [hok] at hw

end

/-- Settles O11: OK and ERRSEEN by the ending, the other flags by the effect. -/
theorem statusFieldsAreWrittenOnlyAsListed : Obligations.StatusFieldsAreWrittenOnlyAsListed := by
  refine ⟨fun i s t h => ?_, Status.word_reset⟩
  have hc : Completes s i t := completes_of_exec h
  obtain ⟨u, hu, ht⟩ := hc.flags
  refine ⟨hc.ok, ?wrap, ?neg, ?dup, ?crcFlags, hc.sticky Status.jump (fun _ _ _ _ => rfl) Effect.jump,
    hc.sticky Status.dropFail (fun _ _ _ _ => rfl) Effect.dropFail, hc.errSeen⟩
  all_goals rw [ht]
  case wrap => exact hu.wrap
  case neg => exact hu.neg
  case dup => exact hu.dup
  case crcFlags => exact hu.crcFlags

end Sys2Proof.Machine
end

section
/-! The frame buffer (spec/20_memory.md R73, R74): what a store leaves unchanged, the range an operation checks first,
and the byte accesses of the host. Settles O14, O16 and O17. -/

namespace Sys2Proof.Machine

open Safety

/-! ### Ranges that are checked first (R74, R281) -/

/-- An operation that checks a range first tests that range, then whatever else it tests, and only then acts. -/
theorem exec_of_firstRange {i : Instr} {off n : Nat} (h : firstRange i = some (off, n)) (s : State) :
    ∃ later act, exec i s = attempt i s ((rangeCheck off n).or later) act := by
  unfold exec
  cases i with
  | nop | clrerr | ckInit | ckByte | crcInit | crcByte | mbxRspv | latchSet | diff32 | diff8 | durAcc | durClr | tsInit
  | tsStep | acc8 | snap8 | diagReset => exact nomatch h
  | mbxHdr | mbxUnhdr | spiPack | cycPack =>
    cases h
    exact ⟨_, _, rfl⟩
  | mbxCmd | mbxCmdz =>
    cases h
    exact ⟨_, _, congrArg (attempt _ s · _) Option.or_assoc⟩
  | _ =>
    cases h
    exact ⟨none, _, congrArg (attempt _ s · _) Option.or_none.symm⟩

/-- A range that passes the end of BUF is refused whatever the later checks and the effect are. -/
theorem attempt_out_of_range {off n : Nat} (h : 1024 < off + n) (i : Instr) (s : State) (later : Option Stop)
    (act : Unit → State) :
    attempt i s ((rangeCheck off n).or later) act = .next (refused s 3 (encode i)) := by
  rw [rangeCheck_of_gt h, Option.some_or, attempt_refuse]
  rfl

/-- Settles O16: the failing range check comes first and ends the operation. -/
theorem outOfRangeOperandsAreRefused : Obligations.OutOfRangeOperandsAreRefused := by
  intro i s off n hi hgt
  obtain ⟨later, act, hexec⟩ := exec_of_firstRange hi s
  rw [hexec, attempt_out_of_range hgt]

/-! ### Byte accesses of the host (R73) -/

/-- A single-byte access at the window offset of BUF[a]. -/
theorem byteAccess_buf {a : Nat} (k : Nat → Result) (h : a < 1024) : byteAccess (0x1000 + a) k = k a := by
  rw [byteAccess_eq, if_neg (by omega), if_neg (by omega), if_pos (by omega), Nat.add_sub_cancel_left]

/-- Settles O17: the access reaches BUF[a], to which the law of a byte read after a byte write applies. -/
theorem hostByteAccess : Obligations.HostByteAccess := by
  intro s rest a ha
  refine ⟨fun hp => ?read, fun b hp => ⟨State.setByte { s with pending := rest } a b, ?write, rfl, fun k => ?bytes⟩⟩
  case read =>
    rw [step_cons hp, performEvent, byteAccess_buf _ ha]
    rfl
  case write => rw [step_cons hp, performEvent, byteAccess_buf _ ha]
  case bytes => exact State.byte_setByte _ a k b

/-! ### What a store leaves unchanged -/

section
variable {s : State} {k off n : Nat}

theorem State.byte_setByte_of_ne {a : Nat} (h : k ≠ a) (b : Byte) : (s.setByte a b).byte k = s.byte k := by
  rw [State.byte_setByte, if_neg h]

theorem State.byte_write16_of_outside {a : Nat} (h : k < a ∨ a + 2 ≤ k) (v : Half) :
    (s.write16 a v).byte k = s.byte k :=
  State.byte_store_of_outside s a k (le16 v) h

theorem State.byte_write32_of_outside {a : Nat} (h : k < a ∨ a + 4 ≤ k) (v : Word) :
    (s.write32 a v).byte k = s.byte k :=
  State.byte_store_of_outside s a k (le32 v) h

theorem State.byte_store_replicate_of_outside {a : Nat} (h : k < a ∨ a + n ≤ k) (b : Byte) :
    (s.store a (List.replicate n b)).byte k = s.byte k :=
  State.byte_store_of_outside s a k _ (by rwa [List.length_replicate])

theorem State.byte_sealCk_of_ne (h : k ≠ off + n) : (s.sealCk off n).byte k = s.byte k :=
  State.byte_setByte_of_ne h _

theorem State.byte_sealCrc_of_outside (h : k < off + n ∨ off + n + 4 ≤ k) : (s.sealCrc off n).byte k = s.byte k :=
  State.byte_write32_of_outside h _

/-- Building a header touches its five bytes alone (R173). -/
theorem State.byte_putHeader_of_outside (h : k < off ∨ off + 5 ≤ k) : (s.putHeader off).byte k = s.byte k := by
  have hck : k ≠ off + (Config.hdrSize - 1) := by change k ≠ off + 4; omega
  rw [State.putHeader, State.byte_sealCk_of_ne hck, State.byte_write16_of_outside (by omega),
    State.byte_write16_of_outside (by omega)]

/-- The data checksum of a write command is one byte; a read command has none (R174). -/
theorem State.byte_sealData_of_ne (h : s.getX 3 = 1 → k ≠ off + 5 + (s.getX 1).toNat) :
    (s.sealData off).byte k = s.byte k := by
  unfold State.sealData
  split
  · next hw => exact State.byte_sealCk_of_ne (h (beq_iff_eq.mp hw))
  · rfl

theorem State.byte_zeroData_of_outside
    (h : s.getX 3 = 1 → k < off + 5 ∨ off + 5 + (s.getX 1).toNat ≤ k) : (s.zeroData off).byte k = s.byte k := by
  unfold State.zeroData
  split
  · next hw => exact State.byte_store_replicate_of_outside (h (beq_iff_eq.mp hw)) _
  · rfl

@[simp] theorem State.zeroData_getX (r : Reg) : (s.zeroData off).getX r = s.getX r := by
  unfold State.zeroData
  split <;> rfl

/-! ### Updates that store nothing -/

/-- What BUF reads as depends on the written bytes and on the reset that chose the others (U2). -/
theorem State.byte_congr {t : State} (hbuf : t.buf = s.buf) (hresets : t.resets = s.resets) : t.byte k = s.byte k := by
  rw [State.byte, State.byte, hbuf, hresets]

@[simp] theorem State.judge_byte (bad : Bool) (v : VCode) : (s.judge bad v).byte k = s.byte k := by
  rcases s.judge_cases bad v with ⟨_, h⟩ | ⟨_, h⟩ <;> rw [h]
  · exact s.verdict_byte v k
  · exact s.pass_byte k

@[simp] theorem State.applyReset_byte : s.applyReset.byte k = s.byte k := by
  unfold State.applyReset
  split <;> rfl

@[simp] theorem State.judgeHeader_byte (a c : Half) : (s.judgeHeader a c).byte k = s.byte k := by
  unfold State.judgeHeader
  split
  · exact s.verdict_byte .addr k
  · exact State.judge_byte _ _

@[simp] theorem State.countDrop_byte (dup : Bool) : (s.countDrop dup).byte k = s.byte k := by
  cases dup <;> rfl

@[simp] theorem State.judgeTimestamp_byte (d : Word) : (s.judgeTimestamp d).byte k = s.byte k := by
  unfold State.judgeTimestamp
  split <;> rfl

end

/-! ### Store ranges (R74) -/

theorem outside_of_not_within {ranges : List (Nat × Nat)} {a off n : Nat} (h : ¬ within ranges a)
    (hr : (off, n) ∈ ranges) : a < off ∨ off + n ≤ a := by
  by_contra hin
  exact h ⟨(off, n), hr, by omega, by omega⟩

/-- A byte survives an operation with leading checks when it survives the effect: a failed check stores nothing. -/
theorem attempt_byte {i : Instr} {s t : State} {c : Option Stop} {act : Unit → State} {a : Nat}
    (h : attempt i s c act = .next t) (hact : (act ()).byte a = s.byte a) : t.byte a = s.byte a := by
  rcases attempt_cases h with ⟨_, rfl⟩ | ⟨e, _, rfl⟩ | ⟨v, _, rfl⟩
  · exact hact
  · exact s.refuse_byte e _ a
  · exact s.verdict_byte v a

section
variable {s t : State} {off a : Nat}

theorem execAiGen_byte (h : execAiGen off s = .next t) (h256 : a < off + 252 ∨ off + 252 + 4 ≤ a)
    (h264 : a < off + 260 ∨ off + 260 + 4 ≤ a) : t.byte a = s.byte a := by
  refine attempt_byte h ?_
  rw [State.succeed_byte, State.byte_sealCrc_of_outside (n := Config.aiCrc264Off) h264,
    State.byte_sealCrc_of_outside (n := Config.aiCrc256Off) h256]

theorem execCycPack_byte (h : execCycPack off s = .next t) (ha : a < off ∨ off + 8 ≤ a) : t.byte a = s.byte a := by
  refine attempt_byte h ?_
  calc State.byte _ a = (s.applyReset.store off s.applyReset.cycleBody).byte a :=
        State.byte_sealCk_of_ne (by change a ≠ off + 7; omega)
    _ = s.applyReset.byte a :=
        State.byte_store_of_outside _ off a s.applyReset.cycleBody (by change a < off ∨ off + 7 ≤ a; omega)
    _ = s.byte a := State.applyReset_byte

theorem execMbxCmd_byte (h : execMbxCmd off s = .next t) (hhdr : a < off ∨ off + 5 ≤ a)
    (hck : s.getX 3 = 1 → a ≠ off + 5 + (s.getX 1).toNat) : t.byte a = s.byte a := by
  refine attempt_byte h ?_
  calc State.byte _ a = (s.putHeader off).byte a := State.byte_sealData_of_ne (s := s.putHeader off) hck
    _ = s.byte a := State.byte_putHeader_of_outside hhdr

theorem execMbxCmdz_byte (h : execMbxCmdz off s = .next t) (ha : a < off ∨ off + commandSize s ≤ a) :
    t.byte a = s.byte a := by
  have hhdr : a < off ∨ off + 5 ≤ a := by
    unfold commandSize at ha
    split at ha <;> omega
  have hdata : s.getX 3 = 1 → a < off ∨ off + 5 + (s.getX 1).toNat < a := by
    intro hw
    rw [commandSize, if_pos hw] at ha
    omega
  refine attempt_byte h ?_
  calc State.byte _ a = ((s.putHeader off).zeroData off).byte a := by
        refine State.byte_sealData_of_ne (s := (s.putHeader off).zeroData off) fun hw => ?_
        rw [State.zeroData_getX] at hw ⊢
        have := hdata hw
        change a ≠ off + 5 + (s.getX 1).toNat
        omega
    _ = (s.putHeader off).byte a := by
        refine State.byte_zeroData_of_outside fun hw => ?_
        have := hdata hw
        change a < off + 5 ∨ off + 5 + (s.getX 1).toNat ≤ a
        omega
    _ = s.byte a := State.byte_putHeader_of_outside hhdr

theorem execCycUnpack_byte (h : execCycUnpack off s = .next t) : t.byte a = s.byte a := by
  refine attempt_byte h ?_
  dsimp only
  split <;> exact State.byte_congr rfl rfl

theorem execUcVfy_byte (h : execUcVfy off s = .next t) : t.byte a = s.byte a := by
  refine attempt_byte h ?_
  dsimp only
  split
  · exact (State.judge_byte _ _).trans (State.byte_congr rfl rfl)
  · exact State.byte_congr rfl rfl

theorem execAcc8_byte {ra : Reg} {ch : Nat} (h : execAcc8 ra ch s = .next t) : t.byte a = s.byte a := by
  cases h
  cases channel? ch with
  | none => exact s.refuse_byte .chan _ a
  | some c => exact State.byte_congr rfl rfl

theorem execSnap8_byte {ra : Reg} {ch : Nat} (h : execSnap8 ra ch s = .next t) : t.byte a = s.byte a := by
  cases h
  cases channel? ch with
  | none => exact s.refuse_byte .chan _ a
  | some c => exact State.byte_congr rfl rfl

theorem execTsStep_byte {rd ra : Reg} (h : execTsStep rd ra s = .next t) : t.byte a = s.byte a := by
  cases h
  exact (State.judgeTimestamp_byte _).trans (State.countDrop_byte (s := s) _)

end

/-- Settles O14: an operation that stores nothing keeps every byte, and each store of the others is one of its
ranges. -/
theorem bufferIsWrittenOnlyInStoreRanges : Obligations.BufferIsWrittenOnlyInStoreRanges := by
  intro i s t a h ha
  have outside {off n : Nat} : (off, n) ∈ storeRanges s i → a < off ∨ off + n ≤ a := outside_of_not_within ha
  unfold exec at h
  cases i with
  | nop | clrerr | ckInit | ckByte | crcInit | crcByte | latchSet | diff32 | diff8 | durAcc | durClr | tsInit
  | diagReset =>
    cases h
    exact State.byte_congr rfl rfl
  | acc8 => exact execAcc8_byte h
  | snap8 => exact execSnap8_byte h
  | tsStep => exact execTsStep_byte h
  | ckFold | ckSum | crcFold | crcSum | spiUnpack | eesUnpack | get8u | get8s | get16u | get16s | get32 =>
    exact attempt_byte h (State.byte_congr rfl rfl)
  | ckVfy | crcVfy | aiVfy | mbxRspv =>
    exact attempt_byte h ((State.judge_byte _ _).trans (State.byte_congr rfl rfl))
  | mbxUnhdr => exact attempt_byte h ((State.judgeHeader_byte _ _).trans (State.byte_congr rfl rfl))
  | ucVfy => exact execUcVfy_byte h
  | cycUnpack => exact execCycUnpack_byte h
  | ckSeal off len =>
    have hck := outside (List.mem_singleton_self _)
    exact attempt_byte h (State.byte_sealCk_of_ne (by omega))
  | crcSeal | ucGen => exact attempt_byte h (State.byte_sealCrc_of_outside (outside (List.mem_singleton_self _)))
  | aiGen off =>
    exact execAiGen_byte h (outside List.mem_cons_self)
      (outside (List.mem_cons_of_mem _ (List.mem_singleton_self _)))
  | mbxHdr off =>
    have hhdr : a < off ∨ off + 5 ≤ a := outside (List.mem_singleton_self _)
    exact attempt_byte h (State.byte_putHeader_of_outside hhdr)
  | mbxCmd off =>
    refine execMbxCmd_byte h (outside ?header) fun hw => ?dataChecksum
    case header =>
      simp only [storeRanges]
      split <;> exact List.mem_cons_self
    case dataChecksum =>
      have hck : a < off + 5 + (s.getX 1).toNat ∨ off + 5 + (s.getX 1).toNat + 1 ≤ a :=
        outside (by simp [storeRanges, hw])
      omega
  | mbxCmdz => exact execMbxCmdz_byte h (outside (List.mem_singleton_self _))
  | spiPack off =>
    have hframe : a < off ∨ off + 3 ≤ a := outside (List.mem_singleton_self _)
    exact attempt_byte h ((State.byte_setByte_of_ne (by omega) _).trans (State.byte_write16_of_outside (by omega) _))
  | cycPack => exact execCycPack_byte h (outside (List.mem_singleton_self _))
  | put8 r off =>
    have hbyte := outside (List.mem_singleton_self _)
    exact attempt_byte h (State.byte_setByte_of_ne (by omega) _)
  | put16 => exact attempt_byte h (State.byte_write16_of_outside (outside (List.mem_singleton_self _)) _)
  | put32 => exact attempt_byte h (State.byte_write32_of_outside (outside (List.mem_singleton_self _)) _)
  | fillZ | fillF =>
    exact attempt_byte h (State.byte_store_replicate_of_outside (outside (List.mem_singleton_self _)) _)

end Sys2Proof.Machine
end

section
/-! Every command word is one operation or one of the two refusals of decoding (spec/30_encoding.md R91, R94 to R97): the
must-be-zero bits of a format are fields of the word, and the fields of a word put it together again. Settles O1 to O4. -/

namespace Sys2Proof.Machine

open Safety

/-- Settles O1: each format reads back the operands it was built from. -/
theorem decodeOfEncodeIsIdentity : Obligations.DecodeOfEncodeIsIdentity := fun _ => decode_encode

/-- Settles O4, by running the decoder on the nine words. -/
theorem sampleWordsDecode : Obligations.SampleWordsDecode := by
  unfold Obligations.SampleWordsDecode
  decide

/-! ### The fields of a word (R91) -/

section
variable {w : Word} {hi lo : Nat}

theorem field_eq_toNat_extractLsb' : field w hi lo = (w.extractLsb' lo (hi - lo + 1)).toNat := by
  rw [BitVec.extractLsb'_toNat, Nat.shiftRight_eq_div_pow, field]

/-- A field is 0 when each of its bits is. -/
theorem field_eq_zero_iff (h : lo ≤ hi) : field w hi lo = 0 ↔ ∀ k, lo ≤ k → k ≤ hi → w.getLsbD k = false := by
  have hbits : field w hi lo = 0 ↔ ∀ j < hi - lo + 1, w.getLsbD (lo + j) = false := by
    rw [field_eq_toNat_extractLsb', ← BitVec.toNat_zero, BitVec.toNat_inj, BitVec.eq_of_getLsbD_eq_iff]
    simp +contextual
  rw [hbits]
  constructor
  · intro hz k hlo hhi
    simpa [Nat.add_sub_cancel' hlo] using hz (k - lo) (by omega)
  · intro hz j hj
    exact hz (lo + j) (by omega) (by omega)

/-- The ones of the mask `m` are the bits `hi` down to `lo`. -/
abbrev MaskOf (m : Word) (hi lo : Nat) : Prop :=
  lo ≤ hi ∧ hi < 32 ∧ ∀ k < 32, m.getLsbD k = decide (lo ≤ k ∧ k ≤ hi)

/-- A mask tests the field of its bits. -/
theorem and_eq_zero_iff_field {m : Word} (h : MaskOf m hi lo) : w &&& m = 0 ↔ field w hi lo = 0 := by
  obtain ⟨hle, hlt, hm⟩ := h
  rw [field_eq_zero_iff hle, BitVec.eq_of_getLsbD_eq_iff]
  constructor
  · intro hz k hlo hhi
    have hk := hz k (by omega)
    simpa [hm k (by omega), hlo, hhi] using hk
  · intro hz k hk
    by_cases hin : lo ≤ k ∧ k ≤ hi
    · simp [hz k hin.1 hin.2]
    · simp [hm k hk, hin]

/-- A mask of two parts tests both. -/
theorem and_or_eq_zero_iff {m n : Word} {a b : Nat} (hm : w &&& m = 0 ↔ a = 0) (hn : w &&& n = 0 ↔ b = 0) :
    w &&& (m ||| n) = 0 ↔ a + b = 0 := by
  rw [BitVec.and_or_distrib_left, Nat.add_eq_zero_iff, ← hm, ← hn]
  exact BitVec.or_eq_zero_iff

theorem field_opcode (w : Word) : field w 31 24 = w.toNat / 2 ^ 24 :=
  Nat.mod_eq_of_lt (by have := w.isLt; omega)

/-- A word is its opcode and its low 24 bits (R90). -/
theorem wordOf_eq {op low : Nat} (hop : field w 31 24 = op) (hlow : low = field w 23 0) : wordOf op low = w := by
  have := w.isLt
  apply BitVec.eq_of_toNat_eq
  simp only [hlow, ← hop, field, wordOf, BitVec.toNat_ofNat]
  omega

theorem fits12_field (lo : Nat) : fits12 (field w (lo + 11) lo) = true := by
  rw [fits12_iff, field, Nat.add_sub_cancel_left]
  exact Nat.mod_lt _ (by decide)

end

/-! ### One lemma per format: the word is refused or put together again (R91, R95, R96) -/

/-- What decoding must answer for a word with the must-be-zero bits `m`. -/
def Exact (w m : Word) (d : Decoded) : Prop :=
  (w &&& m ≠ 0 → d = .error .reserved) ∧ (w &&& m = 0 → ∃ i, i.wf = true ∧ d = .ok i ∧ encode i = w)

theorem exact_ifZero {w m : Word} {bits : Nat} {i : Instr} (hm : w &&& m = 0 ↔ bits = 0) (hwf : i.wf = true)
    (henc : bits = 0 → encode i = w) : Exact w m (ifZero bits i) :=
  ⟨fun h => if_neg (mt hm.mpr h), fun h => ⟨i, hwf, if_pos (hm.mp h), henc (hm.mp h)⟩⟩

section
variable {w : Word} {op : Nat} (hop : field w 31 24 = op)
include hop

theorem exact_formatN {i : Instr} (hwf : i.wf = true) (henc : encode i = wordOf op 0) :
    Exact w 0x00FFFFFF (formatN w i) :=
  exact_ifZero (and_eq_zero_iff_field (by decide)) hwf fun hz => henc.trans (wordOf_eq hop hz.symm)

theorem exact_formatI {mk : Byte → Instr} (hwf : ∀ b, (mk b).wf = true)
    (henc : ∀ b, encode (mk b) = wordOf op b.toNat) : Exact w 0x00FFFF00 (formatI w mk) := by
  refine exact_ifZero (and_eq_zero_iff_field (by decide)) (hwf _) fun hz =>
    (henc _).trans (wordOf_eq hop ?_)
  simp only [field, immField, BitVec.toNat_ofNat] at hz ⊢
  omega

theorem exact_formatR {mk : Nat → Nat → Instr} (hwf : ∀ off len, (mk off len).wf = (fits12 off && fits12 len))
    (henc : ∀ off len, encode (mk off len) = wordOf op (lowR off len)) : Exact w 0 (formatR w mk) := by
  refine ⟨fun h => absurd BitVec.and_zero h, fun _ => ⟨_, ?wf, rfl, (henc _ _).trans (wordOf_eq hop ?low)⟩⟩
  case wf => rw [hwf, fits12_field 12, fits12_field 0, Bool.and_self]
  case low =>
    simp only [field, lowR]
    omega

theorem exact_formatO {mk : Nat → Instr} (hwf : ∀ off, (mk off).wf = fits12 off)
    (henc : ∀ off, encode (mk off) = wordOf op (off % 4096)) : Exact w 0x00FFF000 (formatO w mk) := by
  refine exact_ifZero (and_eq_zero_iff_field (by decide)) ((hwf _).trans (fits12_field 0)) fun hz =>
    (henc _).trans (wordOf_eq hop ?_)
  simp only [field] at hz ⊢
  omega

theorem exact_formatM {mk : Reg → Nat → Instr} (hwf : ∀ r off, (mk r off).wf = fits12 off)
    (henc : ∀ r off, encode (mk r off) = wordOf op (lowM r off)) : Exact w 0x000FF000 (formatM w mk) := by
  refine exact_ifZero (and_eq_zero_iff_field (by decide)) ((hwf _ _).trans (fits12_field 0)) fun hz =>
    (henc _ _).trans (wordOf_eq hop ?_)
  simp only [field, lowM, regField, Config.nx] at hz ⊢
  omega

theorem exact_formatX3 {mk : Reg → Reg → Reg → Instr} (hwf : ∀ rd ra rb, (mk rd ra rb).wf = true)
    (henc : ∀ rd ra rb, encode (mk rd ra rb) = wordOf op (lowX rd ra rb)) : Exact w 0x00000FFF (formatX3 w mk) := by
  refine exact_ifZero (and_eq_zero_iff_field (by decide)) (hwf _ _ _) fun hz =>
    (henc _ _ _).trans (wordOf_eq hop ?_)
  simp only [field, lowX, regField, Config.nx] at hz ⊢
  omega

theorem exact_formatX2 {mk : Reg → Reg → Instr} (hwf : ∀ rd ra, (mk rd ra).wf = true)
    (henc : ∀ rd ra, encode (mk rd ra) = wordOf op (lowX rd ra 0)) : Exact w 0x0000FFFF (formatX2 w mk) := by
  refine exact_ifZero (and_eq_zero_iff_field (by decide)) (hwf _ _) fun hz =>
    (henc _ _).trans (wordOf_eq hop ?_)
  simp only [field, lowX, regField, Config.nx, Fin.val_zero, Nat.zero_mul] at hz ⊢
  omega

theorem exact_formatX1 {mk : Reg → Instr} (hwf : ∀ ra, (mk ra).wf = true)
    (henc : ∀ ra, encode (mk ra) = wordOf op (lowX 0 ra 0)) : Exact w 0x00F0FFFF (formatX1 w mk) := by
  have hm : w &&& (0x00F00000 ||| 0x0000FFFF) = 0 ↔ field w 23 20 + field w 15 0 = 0 :=
    and_or_eq_zero_iff (and_eq_zero_iff_field (by decide)) (and_eq_zero_iff_field (by decide))
  refine exact_ifZero hm (hwf _) fun hz => (henc _).trans (wordOf_eq hop ?_)
  simp only [field, lowX, regField, Config.nx, Fin.val_zero, Nat.zero_mul] at hz ⊢
  omega

theorem exact_formatC {mk : Reg → Nat → Instr} (hwf : ∀ ra ch, (mk ra ch).wf = fits8 ch)
    (henc : ∀ ra ch, encode (mk ra ch) = wordOf op (lowC ra ch)) : Exact w 0x00F0FF00 (formatC w mk) := by
  have hch : fits8 (field w 7 0) = true := fits8_iff.mpr (Nat.mod_lt _ (by decide))
  have hm : w &&& (0x00F00000 ||| 0x0000FF00) = 0 ↔ field w 23 20 + field w 15 8 = 0 :=
    and_or_eq_zero_iff (and_eq_zero_iff_field (by decide)) (and_eq_zero_iff_field (by decide))
  refine exact_ifZero hm ((hwf _ _).trans hch) fun hz => (henc _ _).trans (wordOf_eq hop ?_)
  simp only [field, lowC, regField, Config.nx] at hz ⊢
  omega

end

/-! ### The table of R94, by the masks of its rows -/

/-- The rows with one mask are the rows of one format, and each row's operation is encoded with the row's opcode. -/
theorem decode_exact {w m : Word} (hm : reservedMask (field w 31 24) = some m) : Exact w m (decode w) := by
  generalize hop : field w 31 24 = op at hm
  unfold decode
  rw [hop]
  unfold reservedMask at hm
  split_ifs at hm with hN hI hR hO hM hX3 hX1 hX2 hC <;> cases hm
  · fin_cases hN <;> exact exact_formatN hop rfl rfl
  · fin_cases hI <;> exact exact_formatI hop (fun _ => rfl) fun _ => rfl
  · fin_cases hR <;> exact exact_formatR hop (fun _ _ => rfl) fun _ _ => rfl
  · fin_cases hO <;> exact exact_formatO hop (fun _ => rfl) fun _ => rfl
  · fin_cases hM <;> exact exact_formatM hop (fun _ _ => rfl) fun _ _ => rfl
  · fin_cases hX3 <;> exact exact_formatX3 hop (fun _ _ _ => rfl) fun _ _ _ => rfl
  · fin_cases hX1 <;> exact exact_formatX1 hop (fun _ => rfl) fun _ => rfl
  · subst hX2
    exact exact_formatX2 hop (fun _ _ => rfl) fun _ _ => rfl
  · fin_cases hC <;> exact exact_formatC hop (fun _ _ => rfl) fun _ _ => rfl

/-- Each opcode the decoder knows has a mask (R97). -/
theorem decode_illegal {w : Word} (h : reservedMask (field w 31 24) = none) : decode w = .error .illegal := by
  unfold decode
  split
  case h_49 => rfl
  all_goals
    next hop => exact absurd (hop ▸ h) (by decide)

/-- Settles O2: an opcode without a mask is illegal, and one with a mask is decoded exactly by that mask's format. -/
theorem everyWordIsOneOperationOrRefused : Obligations.EveryWordIsOneOperationOrRefused := by
  intro w
  rw [← field_opcode]
  split
  next h => exact decode_illegal h
  next m h => exact decode_exact h

/-! ### The refusal of a word (R96, R97) -/

theorem wordRefused_of_illegal {w : Word} (h : decode w = .error .illegal) : WordRefused w 1 := by
  intro s rest hp
  rw [step_cons hp, performEvent_cmd, runCommand, h]
  rfl

theorem wordRefused_of_reserved {w : Word} (h : decode w = .error .reserved) : WordRefused w 2 := by
  intro s rest hp
  rw [step_cons hp, performEvent_cmd, runCommand, h]
  rfl

/-- Settles O3: decoding refuses the word, and a refused word changes only the fields of the refusal. -/
theorem reservedAndUnassignedWordsAreRefused : Obligations.ReservedAndUnassignedWordsAreRefused := by
  intro w
  rw [← field_opcode]
  exact ⟨fun m hm hw => wordRefused_of_reserved ((decode_exact hm).1 hw),
    fun h => wordRefused_of_illegal (decode_illegal h)⟩

end Sys2Proof.Machine
end

section
/-! Words without operands (spec/30_encoding.md R91, R96) and the operations that put an accumulator at its start value:
CK.INIT (R125), CRC.INIT (R144) and DUR.CLR (R227). Settles O23. -/

namespace Sys2Proof.Machine

open Safety

/-- An opcode of format N has one word; the others with that opcode are reserved (R91, R96). -/
theorem wordRefused_of_formatN {w : Word} {op : Nat} (hop : reservedMask op = some 0x00FFFFFF)
    (hlo : op * 2 ^ 24 < w.toNat) (hhi : w.toNat < (op + 1) * 2 ^ 24) : WordRefused w 2 := by
  have hfield : field w 31 24 = op := by rw [field_opcode]; omega
  have hlow : field w 23 0 ≠ 0 := by simp only [field]; omega
  have hbits : w &&& 0x00FFFFFF ≠ 0 := mt (and_eq_zero_iff_field (by decide)).mp hlow
  exact wordRefused_of_reserved ((decode_exact (hfield ▸ hop)).1 hbits)

/-- Settles O23: each of the three opcodes is of format N, and CRCOUT is the finished form of CRCACC (R33). -/
theorem accumulatorClears : Obligations.AccumulatorClears := by
  refine ⟨by decide, by decide, by decide, fun w h => ?reserved, fun s => ⟨rfl, ⟨_, rfl, rfl, crcFinish_init⟩, rfl⟩⟩
  rcases h with ⟨hlo, hhi⟩ | ⟨hlo, hhi⟩ | ⟨hlo, hhi⟩
  · exact wordRefused_of_formatN (op := 0x10) (by decide) hlo hhi
  · exact wordRefused_of_formatN (op := 0x20) (by decide) hlo hhi
  · exact wordRefused_of_formatN (op := 0x53) (by decide) hlo hhi

end Sys2Proof.Machine
end

section
/-! The checksum as a function of byte sequences (spec/40_checksum.md R120 to R124): the rotation loses no bit, so a step
loses neither the accumulator nor the byte, and the fold tells apart any two sequences that differ in one byte.
Settles O24 and O25. -/

namespace Sys2Proof.Machine

/-! ### The rotation (R120) -/

/-- Bit i + 1 moves to bit i, and bit 0 to bit 7. -/
theorem rotr8_getLsbD (a : Byte) {i : Nat} (h : i < 8) : (rotr8 a).getLsbD i = a.getLsbD ((i + 1) % 8) := by
  simp only [rotr8, BitVec.getLsbD_or, BitVec.getLsbD_ushiftRight, BitVec.getLsbD_shiftLeft, h, decide_true,
    Bool.true_and]
  obtain h7 | rfl : i < 7 ∨ i = 7 := by omega
  · rw [Nat.mod_eq_of_lt (by omega), Nat.add_comm 1 i]
    simp [h7]
  · simp

/-- R120's `{a[0], a[7:1]}`. -/
theorem rotr8_eq_append (a : Byte) : rotr8 a = a.extractLsb' 0 1 ++ a.extractLsb' 1 7 := by
  refine BitVec.eq_of_getLsbD_eq fun i hi => ?_
  rw [rotr8_getLsbD a hi, BitVec.getLsbD_append]
  obtain h7 | rfl : i < 7 ∨ i = 7 := by omega
  · simp [h7, Nat.mod_eq_of_lt (show i + 1 < 8 by omega), Nat.add_comm]
  · simp

/-- R120's `((a >> 1) | (a << 7)) & 0xFF`. -/
theorem rotr8_toNat (a : Byte) : (rotr8 a).toNat = ((a.toNat >>> 1) ||| (a.toNat <<< 7)) &&& 0xFF := by
  have hshift : a.toNat >>> 1 < 2 ^ 8 := by have := a.isLt; omega
  calc (rotr8 a).toNat
      = (a.toNat >>> 1) ||| (a.toNat <<< 7) % 2 ^ 8 := by
        simp only [rotr8, BitVec.toNat_or, BitVec.toNat_ushiftRight, BitVec.toNat_shiftLeft]
    _ = ((a.toNat >>> 1) ||| (a.toNat <<< 7)) % 2 ^ 8 := by rw [Nat.or_mod_two_pow, Nat.mod_eq_of_lt hshift]
    _ = _ := (Nat.and_two_pow_sub_one_eq_mod _ 8).symm

theorem rotr8_injective : Function.Injective rotr8 := by
  intro a b h
  refine BitVec.eq_of_getLsbD_eq fun i hi => ?_
  have hbit : (rotr8 a).getLsbD ((i + 7) % 8) = (rotr8 b).getLsbD ((i + 7) % 8) := by rw [h]
  rwa [rotr8_getLsbD _ (by omega), rotr8_getLsbD _ (by omega), show ((i + 7) % 8 + 1) % 8 = i by omega] at hbit

/-! ### The step and the fold (R121, R122) -/

theorem cksStep_left_inj {a b c : Byte} : cksStep a c = cksStep b c ↔ a = b :=
  (BitVec.xor_left_inj c).trans rotr8_injective.eq_iff

theorem cksStep_right_inj {a b c : Byte} : cksStep a b = cksStep a c ↔ b = c :=
  BitVec.xor_right_inj _

theorem cksFrom_inj {a b : Byte} (q : List Byte) : cksFrom a q = cksFrom b q ↔ a = b := by
  induction q generalizing a b with
  | nil => exact Iff.rfl
  | cons c q ih => exact ih.trans cksStep_left_inj

/-- Settles O24. -/
theorem checksumFunctions : Obligations.ChecksumFunctions := by
  refine ⟨fun a => ⟨rotr8_eq_append a, rotr8_toNat a⟩, by decide, ?step, ?seed, ?fold, ?append⟩
  case step => exact fun _ _ => rfl
  case seed => rfl
  case fold => exact fun _ => ⟨rfl, fun _ _ => rfl⟩
  case append => exact fun p q => ⟨rfl, cksFrom_append _ p q⟩

/-! ### Valid frames (R123, R124) -/

theorem cks_concat_eq_zero_iff {p : List Byte} {t : Byte} : cks (p ++ [t]) = 0 ↔ t = trailer p := by
  rw [cks_concat, trailer]
  exact BitVec.xor_eq_zero_iff.trans eq_comm

/-- Two sequences that differ in one byte have different checksums, whatever stands around it. -/
theorem cks_replace_inj {p q : List Byte} {b c : Byte} : cks (p ++ b :: q) = cks (p ++ c :: q) ↔ b = c :=
  calc cks (p ++ b :: q) = cks (p ++ c :: q)
      ↔ cksFrom (cksStep (cks p) b) q = cksFrom (cksStep (cks p) c) q := by
        rw [cks, cks, cksFrom_append, cksFrom_append]
        exact Iff.rfl
    _ ↔ cksStep (cks p) b = cksStep (cks p) c := cksFrom_inj q
    _ ↔ b = c := cksStep_right_inj

/-- Settles O25. -/
theorem checksumFrameProperties : Obligations.ChecksumFrameProperties :=
  ⟨fun _ _ => cks_concat_eq_zero_iff, fun _ _ _ _ hvalid hne hc => hne (cks_replace_inj.mp (hc.trans hvalid.symm))⟩

end Sys2Proof.Machine
end

section
/-! The operations of the checksum unit in range (spec/40_checksum.md R126 to R131). Settles O26, O27 and O28. -/

namespace Sys2Proof.Machine

open Safety

/-! ### The shared operations, in the terms of the claims -/

theorem buf_eq_bytes (s : State) (off n : Nat) : buf s off n = s.bytes off n :=
  (s.bytes_eq_map off n).symm

/-- A verify operation's last line writes OK and LASTERR and nothing else (R285, R286). -/
theorem State.judge_eq_verified (s : State) (bad : Bool) (v : VCode) :
    s.judge bad v = { s with status := verified s.status (if bad then v.code else 0) } := by
  cases bad
  · rfl
  · cases v <;> rfl

/-- The fold of a range, judged: it goes to CKACC, and OK tells whether it is 0 (R130). -/
theorem State.judge_foldRange (s : State) (off n : Nat) :
    (s.foldRange off n).judge (cks (s.bytes off n) != 0) .cksum = { s with
      ckAcc := cks (Safety.buf s off n)
      status := verified s.status (if cks (Safety.buf s off n) = 0 then 0 else 10) } := by
  rw [State.judge_eq_verified, buf_eq_bytes]
  simp only [bne_iff_ne, ne_eq, ite_not]
  rfl

/-- A range of BUF around one of its bytes. -/
theorem State.bytes_around (s : State) (a p n : Nat) :
    s.bytes a (p + (n + 1)) = s.bytes a p ++ s.byte (a + p) :: s.bytes (a + p + 1) n :=
  s.bytes_append a p (n + 1)

theorem State.bytes_setByte_around (s : State) (a p n : Nat) (b : Byte) :
    (s.setByte (a + p) b).bytes a (p + (n + 1)) = s.bytes a p ++ b :: s.bytes (a + p + 1) n := by
  have hbefore : (s.setByte (a + p) b).bytes a p = s.bytes a p :=
    State.bytes_congr a p fun k _ hk => State.byte_setByte_of_ne (by omega) b
  have hafter : (s.setByte (a + p) b).bytes (a + p + 1) n = s.bytes (a + p + 1) n :=
    State.bytes_congr _ n fun k hk _ => State.byte_setByte_of_ne (by omega) b
  rw [State.bytes_around, hbefore, hafter, State.byte_setByte, if_pos rfl]

/-! ### Sealing a region (R123, R129) -/

theorem State.byte_sealCk (s : State) (off n k : Nat) :
    (s.sealCk off n).byte k = if k = off + n then trailer (s.bytes off n) else s.byte k :=
  s.byte_setByte (off + n) k _

theorem State.bytes_sealCk (s : State) (off n : Nat) :
    (s.sealCk off n).bytes off (n + 1) = s.bytes off n ++ [trailer (s.bytes off n)] :=
  s.bytes_setByte_around off n 0 _

/-- A sealed region is a valid ChecksumFrame in every state that holds the same bytes (R131). -/
theorem cks_of_sealed {s t : State} {off n : Nat} (h : ∀ k, t.byte k = (s.sealCk off n).byte k) :
    cks (t.bytes off (n + 1)) = 0 := by
  rw [State.bytes_congr off (n + 1) fun k _ _ => h k, State.bytes_sealCk]
  exact cks_concat_eq_zero_iff.mpr rfl

/-- Replacing one byte of a valid frame in BUF leaves an invalid one (R124). -/
theorem State.cks_setByte_ne_zero {s : State} {off n p : Nat} {b : Byte} (hp : p ≤ n)
    (hvalid : cks (s.bytes off (n + 1)) = 0) (hb : b ≠ s.byte (off + p)) :
    cks ((s.setByte (off + p) b).bytes off (n + 1)) ≠ 0 := by
  obtain ⟨m, rfl⟩ := Nat.exists_eq_add_of_le hp
  rw [Nat.add_assoc, State.bytes_around] at hvalid
  rw [Nat.add_assoc, State.bytes_setByte_around]
  exact fun hzero => hb (cks_replace_inj.mp (hzero.trans hvalid.symm))

/-! ### The operations -/

section
variable {off len : Nat} (s : State)

/-- CK.FOLD in range (R127). -/
theorem exec_ckFold (h : off + len ≤ 1024) : exec (.ckFold off len) s =
    .next { s with ckAcc := cksFrom s.ckAcc (buf s off len), status := done s.status } := by
  change execCkFold off len s = _
  rw [execCkFold, rangeCheck_of_le h, attempt_none, buf_eq_bytes]
  rfl

/-- CK.SUM in range (R128). -/
theorem exec_ckSum (h : off + len ≤ 1024) : exec (.ckSum off len) s =
    .next { s with ckAcc := cks (buf s off len), status := done s.status } := by
  change execCkSum off len s = _
  rw [execCkSum, rangeCheck_of_le h, attempt_none, buf_eq_bytes]
  rfl

/-- CK.SEAL in range (R129). -/
theorem exec_ckSeal (h : off + (len + 1) ≤ 1024) : exec (.ckSeal off len) s =
    .next { s.sealCk off len with ckAcc := rotr8 (cks (buf s off len)), status := done s.status } := by
  change execCkSeal off len s = _
  rw [execCkSeal, rangeCheck_of_le h, attempt_none, buf_eq_bytes]
  rfl

/-- CK.VFY in range (R130). -/
theorem exec_ckVfy (h : off + len ≤ 1024) : exec (.ckVfy off len) s = .next { s with
    ckAcc := cks (buf s off len)
    status := verified s.status (if cks (buf s off len) = 0 then 0 else 10) } := by
  change execCkVfy off len s = _
  rw [execCkVfy, rangeCheck_of_le h, attempt_none, State.judge_foldRange]

end

/-- Settles O26. -/
theorem checksumFoldResults : Obligations.ChecksumFoldResults :=
  ⟨fun _ _ => rfl, fun _ _ s h => ⟨exec_ckFold s h, exec_ckSum s h⟩⟩

/-- Settles O27. -/
theorem checksumSealAndVerifyResults : Obligations.ChecksumSealAndVerifyResults := by
  refine ⟨fun off len s h => ⟨_, exec_ckSeal s h, rfl, fun a => ?bytes⟩, fun _ _ s h => exec_ckVfy s h⟩
  rw [buf_eq_bytes]
  exact s.byte_sealCk off len a

/-- CK.VFY of a valid frame succeeds (R130). -/
theorem ckVfy_passes {s : State} {off len : Nat} (h : off + len ≤ 1024) (hvalid : cks (s.bytes off len) = 0) :
    ∃ u, exec (.ckVfy off len) s = .next u ∧ u.status.ok = true ∧ u.status.lastErr = 0 ∧ u.ckAcc = 0 := by
  refine ⟨_, exec_ckVfy s h, ?_⟩
  rw [buf_eq_bytes, if_pos hvalid]
  exact ⟨rfl, rfl, hvalid⟩

/-- CK.VFY of any other sequence ends in V_CKSUM (R130). -/
theorem ckVfy_fails {s : State} {off len : Nat} (h : off + len ≤ 1024) (hbad : cks (s.bytes off len) ≠ 0) :
    ∃ u, exec (.ckVfy off len) s = .next u ∧ u.status.ok = false ∧ u.status.lastErr = 10 ∧ u.ckAcc ≠ 0 := by
  refine ⟨_, exec_ckVfy s h, ?_⟩
  rw [buf_eq_bytes, if_neg hbad]
  exact ⟨rfl, rfl, hbad⟩

/-- What CK.SEAL leaves is a valid ChecksumFrame (R129, R131). -/
theorem ckSeal_leaves_valid_frame (s : State) {off len : Nat} (h : off + (len + 1) ≤ 1024) :
    ∃ t, exec (.ckSeal off len) s = .next t ∧ cks (t.bytes off (len + 1)) = 0 :=
  ⟨_, exec_ckSeal s h, cks_of_sealed (s := s) fun _ => rfl⟩

/-- Settles O28: CK.SEAL leaves a valid frame, and a frame with one byte replaced is not valid. -/
theorem sealedFrameVerifies : Obligations.SealedFrameVerifies := by
  intro off len s h
  rw [Nat.add_assoc] at h
  obtain ⟨t, hseal, hvalid⟩ := ckSeal_leaves_valid_frame s h
  exact ⟨t, hseal, ckVfy_passes h hvalid, fun p b hp hb => ckVfy_fails h (State.cks_setByte_ne_zero hp hvalid hb)⟩

end Sys2Proof.Machine
end

section
/-! The CRC as a function of byte sequences (spec/41_crc32.md R140 to R142): a shift is linear and loses no bit, so the
fold loses neither the accumulator nor a byte, and what stands after four bytes is their word shifted in at once.
Settles O29, O30 and O31. -/

namespace Sys2Proof.Machine

open Safety

/-! ### The shift (R140) -/

/-- A shift in one expression: bit 0 selects the polynomial. -/
theorem crcShift_eq (a : Word) : crcShift a = (a >>> 1) ^^^ (if a.getLsbD 0 then Config.crcPolyReflected else 0) := by
  unfold crcShift
  split
  · rfl
  · exact BitVec.xor_zero.symm

theorem crcShifts_eq_iterate (n : Nat) (a : Word) : crcShifts n a = crcShift^[n] a := by
  induction n generalizing a with
  | zero => rfl
  | succ n ih => exact ih (crcShift a)

/-- The bit that leaves at the low end decides whether the polynomial's bit 31 enters. -/
theorem crcShift_getLsbD_top (a : Word) : (crcShift a).getLsbD 31 = a.getLsbD 0 := by
  rw [crcShift_eq]
  cases a.getLsbD 0 <;> simp

theorem crcShift_injective : Function.Injective crcShift := by
  intro a b h
  have hlow : a.getLsbD 0 = b.getLsbD 0 := by rw [← crcShift_getLsbD_top, h, crcShift_getLsbD_top]
  have hrest : a >>> 1 = b >>> 1 := by rwa [crcShift_eq, crcShift_eq, hlow, BitVec.xor_left_inj] at h
  refine BitVec.eq_of_getLsbD_eq fun i _ => ?_
  cases i with
  | zero => exact hlow
  | succ i => simpa [Nat.add_comm] using congrArg (BitVec.getLsbD · i) hrest

theorem crcShifts_inj {n : Nat} {a b : Word} : crcShifts n a = crcShifts n b ↔ a = b := by
  rw [crcShifts_eq_iterate, crcShifts_eq_iterate]
  exact (crcShift_injective.iterate n).eq_iff

theorem crcShift_xor (a b : Word) : crcShift (a ^^^ b) = crcShift a ^^^ crcShift b := by
  have hpoly : ∀ p q : Bool, (if (p ^^ q) then Config.crcPolyReflected else 0) =
      (if p then Config.crcPolyReflected else 0) ^^^ (if q then Config.crcPolyReflected else 0) := by decide
  rw [crcShift_eq, crcShift_eq, crcShift_eq, BitVec.ushiftRight_xor_distrib, BitVec.getLsbD_xor, hpoly]
  ac_rfl

theorem crcShifts_xor (n : Nat) (a b : Word) : crcShifts n (a ^^^ b) = crcShifts n a ^^^ crcShifts n b := by
  simp only [crcShifts_eq_iterate]
  exact Function.Semiconj₂.iterate (op := (· ^^^ ·)) crcShift_xor n a b

theorem crcShifts_add (m n : Nat) (a : Word) : crcShifts m (crcShifts n a) = crcShifts (m + n) a := by
  simp only [crcShifts_eq_iterate, Function.iterate_add_apply]

/-- While the bits that leave are 0, the register only moves. -/
theorem crcShifts_of_low_zero {n : Nat} {a : Word} (h : ∀ i < n, a.getLsbD i = false) : crcShifts n a = a >>> n := by
  induction n generalizing a with
  | zero => exact (BitVec.ushiftRight_zero a).symm
  | succ n ih =>
    have hshift : crcShift a = a >>> 1 := by rw [crcShift_eq, h 0 n.succ_pos]; exact BitVec.xor_zero
    rw [crcShifts, hshift, ih, ← BitVec.shiftRight_add, Nat.add_comm]
    intro i hi
    rw [BitVec.getLsbD_ushiftRight]
    exact h (1 + i) (by omega)

/-! ### The bit-reflected form (R140) -/

theorem reverse_xor {w : Nat} (a b : BitVec w) : (a ^^^ b).reverse = a.reverse ^^^ b.reverse := by
  refine BitVec.eq_of_getLsbD_eq fun i _ => ?_
  simp only [BitVec.getLsbD_reverse, BitVec.getLsbD_xor, BitVec.getMsbD_xor]

theorem reverse_ushiftRight {w : Nat} (a : BitVec w) (n : Nat) : (a >>> n).reverse = a.reverse <<< n := by
  refine BitVec.eq_of_getLsbD_eq fun i hi => ?_
  simp only [BitVec.getLsbD_reverse, BitVec.getMsbD_ushiftRight, BitVec.getLsbD_shiftLeft, hi, decide_true,
    Bool.true_and]

/-- The byte that enters at the low end is, reversed, the reversed byte at the high end. -/
theorem reverse_setWidth_byte (b : Byte) : (b.setWidth 32).reverse = b.reverse.setWidth 32 <<< 24 := by
  refine BitVec.eq_of_getLsbD_eq fun i hi => ?_
  simp only [BitVec.getLsbD_reverse, BitVec.getMsbD_setWidth, BitVec.getLsbD_shiftLeft, BitVec.getLsbD_setWidth, hi,
    show i + 8 - 32 = i - 24 by omega, show i - 24 < 32 by omega, decide_true, Bool.true_and, ← decide_not,
    Nat.not_lt]

theorem reverse_crcShift (a : Word) : (crcShift a).reverse = polyShift a.reverse := by
  have hpoly : Config.crcPolyReflected.reverse = 0x04C11DB7#32 := by decide +kernel
  rw [crcShift, polyShift, BitVec.msb_reverse]
  split
  · rw [reverse_xor, reverse_ushiftRight, hpoly]
  · exact reverse_ushiftRight a 1

/-- Settles O29: reversal carries each shift, and the byte that enters, to the other form. -/
theorem crcStepIsReflectedPolynomialDivision : Obligations.CrcStepIsReflectedPolynomialDivision := by
  intro a b
  have hshifts : ∀ x, (crcShift^[8] x).reverse = polyShift^[8] x.reverse :=
    Function.Semiconj.iterate_right reverse_crcShift 8
  rw [crcStep, crcShifts_eq_iterate, hshifts, reverse_xor, reverse_setWidth_byte]
  rfl

/-! ### The step and the fold (R141) -/

theorem crcStep_left_inj {a b : Word} {c : Byte} : crcStep a c = crcStep b c ↔ a = b :=
  crcShifts_inj.trans (BitVec.xor_left_inj _)

theorem crcStep_right_inj {a : Word} {b c : Byte} : crcStep a b = crcStep a c ↔ b = c := by
  refine (crcShifts_inj.trans (BitVec.xor_right_inj a)).trans ⟨fun h => ?_, fun h => h ▸ rfl⟩
  simpa using congrArg (BitVec.setWidth 8) h

theorem crcFold_inj {a b : Word} (q : List Byte) : crcFold a q = crcFold b q ↔ a = b := by
  induction q generalizing a b with
  | nil => exact Iff.rfl
  | cons c q ih => exact ih.trans crcStep_left_inj

/-- Two sequences that differ in one byte have different raw CRCs, whatever stands around it. -/
theorem crcRaw_replace_inj {p q : List Byte} {b c : Byte} : crcRaw (p ++ b :: q) = crcRaw (p ++ c :: q) ↔ b = c :=
  calc crcRaw (p ++ b :: q) = crcRaw (p ++ c :: q)
      ↔ crcFold (crcStep (crcRaw p) b) q = crcFold (crcStep (crcRaw p) c) q := by
        rw [crcRaw, crcRaw, crcFold_append, crcFold_append]
        exact Iff.rfl
    _ ↔ crcStep (crcRaw p) b = crcStep (crcRaw p) c := crcFold_inj q
    _ ↔ b = c := crcStep_right_inj

theorem crcFinish_inj {a b : Word} : crcFinish a = crcFinish b ↔ a = b :=
  BitVec.xor_left_inj _

/-- Settles O31: the raw CRCs differ, and finishing keeps them apart. -/
theorem crcDetectsOneByteChange : Obligations.CrcDetectsOneByteChange :=
  fun _ _ _ _ hne h => hne (crcRaw_replace_inj.mp (crcFinish_inj.mp h))

/-! ### Four bytes at once, and the residue (R142, R143) -/

theorem xor_low_byte_eq_shifts (v : Word) : v ^^^ (v.extractLsb' 0 8).setWidth 32 = (v >>> 8) <<< 8 := by
  refine BitVec.eq_of_getLsbD_eq fun i hi => ?_
  by_cases h : i < 8
  · simp [h, hi]
  · simp [h, hi, show 8 + (i - 8) = i by omega]

/-- A word whose low byte enters with it: the byte is absorbed and the rest of the word moves down. -/
theorem crcStep_xor_low_byte (x v : Word) : crcStep (x ^^^ v) (v.extractLsb' 0 8) = crcShifts 8 x ^^^ v >>> 8 := by
  have hlow : ∀ i < 8, ((v >>> 8) <<< 8).getLsbD i = false := fun i hi => by simp [hi]
  have hmoved : ((v >>> 8) <<< 8) >>> 8 = v >>> 8 := BitVec.eq_of_getLsbD_eq fun i _ => by
    simpa using BitVec.lt_of_getLsbD
  rw [crcStep, BitVec.xor_assoc, xor_low_byte_eq_shifts, crcShifts_xor, crcShifts_of_low_zero hlow, hmoved]

theorem crcStep_xor_next_byte (x v : Word) (n : Nat) :
    crcStep (x ^^^ v >>> n) (v.extractLsb' n 8) = crcShifts 8 x ^^^ v >>> (n + 8) := by
  have hbyte : v.extractLsb' n 8 = (v >>> n).extractLsb' 0 8 := BitVec.eq_of_getLsbD_eq fun i _ => by simp
  rw [hbyte, crcStep_xor_low_byte, BitVec.shiftRight_add]

/-- Folding the four bytes of a word is XORing the word in and shifting 32 times. -/
theorem crcFold_le32 (a v : Word) : crcFold a (le32 v) = crcShifts 32 (a ^^^ v) := by
  have hin : a = (a ^^^ v) ^^^ v >>> 0 := by simp
  have hout : v >>> 32 = 0 := BitVec.ushiftRight_eq_zero (Nat.le_refl 32)
  calc crcFold a (le32 v)
      = crcStep (crcStep (crcStep (crcStep ((a ^^^ v) ^^^ v >>> 0) (v.extractLsb' 0 8)) (v.extractLsb' 8 8))
          (v.extractLsb' 16 8)) (v.extractLsb' 24 8) := by rw [← hin]; rfl
    _ = crcShifts 8 (crcShifts 8 (crcShifts 8 (crcShifts 8 (a ^^^ v)))) ^^^ v >>> 32 := by
        simp only [crcStep_xor_next_byte]
    _ = crcShifts 32 (a ^^^ v) := by
        simp only [hout, crcShifts_add]
        exact BitVec.xor_zero

/-- What the CRC register holds after a message and its CRC (R142). -/
abbrev crcResidue : Word := 0xDEBB20E3

theorem crcShifts_xorOut : crcShifts 32 Config.crcXorOut = crcResidue := by decide +kernel

/-- Of all words, the finished CRC alone leads to the residue. -/
theorem crcFold_le32_eq_residue_iff {a v : Word} : crcFold a (le32 v) = crcResidue ↔ v = crcFinish a := by
  have hxor : a ^^^ v = Config.crcXorOut ↔ v = crcFinish a := by
    rw [← BitVec.xor_right_inj a, ← BitVec.xor_assoc, BitVec.xor_self, BitVec.zero_xor, crcFinish]
  rw [crcFold_le32, ← crcShifts_xorOut, crcShifts_inj, hxor]

/-- A message followed by a word leaves the residue just when the word is the message's CRC (R142). -/
theorem crcRaw_append_le32_eq_residue_iff {p : List Byte} {v : Word} :
    crcRaw (p ++ le32 v) = crcResidue ↔ v = crc32 p := by
  rw [crcRaw, crcFold_append]
  exact crcFold_le32_eq_residue_iff

/-- Settles O30. -/
theorem crcFoldAndResidue : Obligations.CrcFoldAndResidue :=
  ⟨fun _ => ⟨rfl, fun _ _ => rfl⟩, crcFold_append, fun _ => rfl,
    fun _ => crcRaw_append_le32_eq_residue_iff.mpr rfl⟩

end Sys2Proof.Machine
end

section
/-! A CRC stored after its range (spec/41_crc32.md R143) and the operations of the CRC unit in range (R145 to R149). A
range and its stored CRC match just when their raw CRC is the residue, so a change of one byte always breaks a match.
Settles O32 and O33. -/

namespace Sys2Proof.Machine

open Safety

/-! ### 32-bit fields of BUF (R75) -/

theorem u32_eq_read32 (s : State) (a : Nat) : u32 s a = (s.read32 a).toNat := by
  simp only [u32, u16, State.read32, append_toNat]
  rw [show a + 2 + 1 = a + 3 from rfl]
  omega

/-- Four bytes joined and taken apart again. -/
theorem le32_append (a b c d : Byte) : le32 (d ++ c ++ b ++ a) = [a, b, c, d] := by
  have h0 : (d ++ c ++ b ++ a).extractLsb' 0 8 = a := BitVec.extractLsb'_append_eq_right
  have h8 : (d ++ c ++ b ++ a).extractLsb' 8 8 = b := by
    rw [BitVec.extractLsb'_append_eq_of_le (by decide)]
    exact BitVec.extractLsb'_append_eq_right
  have h16 : (d ++ c ++ b ++ a).extractLsb' 16 8 = c := by
    rw [BitVec.extractLsb'_append_eq_of_le (by decide), BitVec.extractLsb'_append_eq_of_le (by decide)]
    exact BitVec.extractLsb'_append_eq_right
  have h24 : (d ++ c ++ b ++ a).extractLsb' 24 8 = d := by
    rw [BitVec.extractLsb'_append_eq_of_le (by decide), BitVec.extractLsb'_append_eq_of_le (by decide)]
    exact BitVec.extractLsb'_append_eq_left
  rw [le32, h0, h8, h16, h24]

theorem bytes_eq_le32_read32 (s : State) (a : Nat) : s.bytes a 4 = le32 (s.read32 a) :=
  (le32_append _ _ _ _).symm

theorem State.read32_congr {s t : State} {a : Nat} (h : ∀ k, a ≤ k → k < a + 4 → s.byte k = t.byte k) :
    s.read32 a = t.read32 a := by
  rw [State.read32, State.read32, h _ (by omega) (by omega), h _ (by omega) (by omega), h _ (by omega) (by omega),
    h a (by omega) (by omega)]

/-! ### A stored CRC (R143) -/

theorem State.crcMatches_eq_decide (s : State) (off n : Nat) :
    s.crcMatches off n = decide ((crc32 (Safety.buf s off n)).toNat = u32 s (off + n)) := by
  rw [State.crcMatches, buf_eq_bytes, u32_eq_read32, beq_eq_decide]
  exact decide_eq_decide.mpr BitVec.toNat_inj.symm

/-- R142's residue is a test for a stored CRC. -/
theorem State.crcMatches_iff_residue {s : State} {off n : Nat} :
    s.crcMatches off n = true ↔ crcRaw (s.bytes off (n + 4)) = crcResidue := by
  rw [State.bytes_append, bytes_eq_le32_read32, crcRaw_append_le32_eq_residue_iff, State.crcMatches, beq_iff_eq]
  exact eq_comm

/-- Whether a stored CRC matches depends on the bytes of the range and of the CRC alone. -/
theorem State.crcMatches_congr {s t : State} {off n : Nat}
    (h : ∀ k, off ≤ k → k < off + (n + 4) → s.byte k = t.byte k) : s.crcMatches off n = t.crcMatches off n := by
  rw [Bool.eq_iff_iff, State.crcMatches_iff_residue, State.crcMatches_iff_residue, State.bytes_congr _ _ h]

theorem buf_setStatus (s : State) (off n : Nat) (st : Status) :
    Safety.buf { s with status := st } off n = Safety.buf s off n := rfl

theorem State.crcMatches_setStatus (s : State) (off n : Nat) (st : Status) :
    State.crcMatches { s with status := st } off n = s.crcMatches off n :=
  State.crcMatches_congr fun _ _ _ => rfl

/-- Replacing one byte of a range or of its stored CRC breaks the match. -/
theorem State.crcMatches_setByte {s : State} {off n p : Nat} {b : Byte} (hp : p < n + 4)
    (hmatch : s.crcMatches off n = true) (hb : b ≠ s.byte (off + p)) :
    (s.setByte (off + p) b).crcMatches off n = false := by
  obtain ⟨m, hm⟩ := Nat.exists_eq_add_of_lt hp
  rw [State.crcMatches_iff_residue, hm, Nat.add_assoc, State.bytes_around] at hmatch
  rw [Bool.eq_false_iff, ne_eq, State.crcMatches_iff_residue, hm, Nat.add_assoc, State.bytes_setByte_around]
  exact fun hres => hb (crcRaw_replace_inj.mp (hres.trans hmatch.symm))

theorem State.crcMatches_setByte_of_outside {s : State} {off n p : Nat} (hp : n + 4 ≤ p) (b : Byte) :
    (s.setByte (off + p) b).crcMatches off n = s.crcMatches off n :=
  State.crcMatches_congr fun _ _ _ => State.byte_setByte_of_ne (by omega) b

theorem State.read32_sealCrc (s : State) (off n : Nat) : (s.sealCrc off n).read32 (off + n) = crc32 (s.bytes off n) :=
  s.read32_write32 (off + n) _

theorem State.bytes_sealCrc (s : State) (off n : Nat) : (s.sealCrc off n).bytes off n = s.bytes off n :=
  State.bytes_congr off n fun _ _ hk => State.byte_sealCrc_of_outside (.inl hk)

theorem State.crcMatches_sealCrc (s : State) (off n : Nat) : (s.sealCrc off n).crcMatches off n = true := by
  rw [State.crcMatches, State.bytes_sealCrc, State.read32_sealCrc, beq_self_eq_true]

/-- The stored field, as a number. -/
theorem State.u32_sealCrc (s : State) (off n : Nat) :
    u32 (s.sealCrc off n) (off + n) = (crc32 (Safety.buf s off n)).toNat := by
  rw [u32_eq_read32, State.read32_sealCrc, buf_eq_bytes]

/-! ### The generic operations -/

theorem State.succeed_eq_done (s : State) : s.succeed = { s with status := done s.status } := rfl

@[simp] theorem State.sealCrc_status (s : State) (off n : Nat) : (s.sealCrc off n).status = s.status := rfl

@[simp] theorem State.sealCrc_crcAcc (s : State) (off n : Nat) :
    (s.sealCrc off n).crcAcc = crcRaw (s.bytes off n) := rfl

/-- The last line of an operation that passes when a stored CRC matches (R149, R153). -/
theorem State.judge_crc (s : State) (valid : Bool) :
    s.judge (!valid) .crc = { s with status := verified s.status (if valid then 0 else 11) } := by
  cases valid <;> rfl

section
variable {off len : Nat} (s : State)

/-- CRC.FOLD in range (R146). -/
theorem exec_crcFold (h : off + len ≤ 1024) : exec (.crcFold off len) s =
    .next { s with crcAcc := crcFold s.crcAcc (buf s off len), status := done s.status } := by
  change execCrcFold off len s = _
  rw [execCrcFold, rangeCheck_of_le h, attempt_none, buf_eq_bytes]
  rfl

/-- CRC.SUM in range (R147). -/
theorem exec_crcSum (h : off + len ≤ 1024) : exec (.crcSum off len) s =
    .next { s with crcAcc := crcRaw (buf s off len), status := done s.status } := by
  change execCrcSum off len s = _
  rw [execCrcSum, rangeCheck_of_le h, attempt_none, buf_eq_bytes]
  rfl

/-- CRC.SEAL in range (R148). -/
theorem exec_crcSeal (h : off + (len + 4) ≤ 1024) : exec (.crcSeal off len) s =
    .next { s.sealCrc off len with status := done s.status } := by
  change execCrcSeal off len s = _
  rw [execCrcSeal, rangeCheck_of_le h, attempt_none, State.succeed_eq_done, State.sealCrc_status]

/-- CRC.VFY in range (R149). -/
theorem exec_crcVfy (h : off + (len + 4) ≤ 1024) : exec (.crcVfy off len) s = .next { s with
    crcAcc := crcRaw (buf s off len)
    status := verified s.status (if s.crcMatches off len then 0 else 11) } := by
  change execCrcVfy off len s = _
  rw [execCrcVfy, rangeCheck_of_le h, attempt_none, State.judge_crc, buf_eq_bytes]

end

/-- Settles O32. -/
theorem crcFoldResults : Obligations.CrcFoldResults :=
  ⟨fun _ _ => rfl, fun _ _ s h => ⟨exec_crcFold s h, _, exec_crcSum s h, rfl, rfl⟩⟩

/-- Settles O33: the stored field reads back as the CRC it was written from. -/
theorem crcSealAndVerifyResults : Obligations.CrcSealAndVerifyResults := by
  intro off len s h
  rw [Nat.add_assoc] at h
  refine ⟨⟨_, exec_crcSeal s h, ?frame, s.u32_sealCrc off len, fun a => State.byte_sealCrc_of_outside⟩, ?verify⟩
  case frame =>
    rw [buf_eq_bytes]
    rfl
  case verify =>
    rw [exec_crcVfy s h, State.crcMatches_eq_decide]
    simp only [decide_eq_true_eq]
    rfl

end Sys2Proof.Machine
end

section
/-! The two records (spec/41_crc32.md R150 to R157), sealed and verified. Settles O34 to O37. -/

namespace Sys2Proof.Machine

open Safety

/-! ### The record with two CRCs (R150 to R154) -/

section
variable (s : State) (off : Nat)

/-- What AI.GEN makes of BUF: the CRC of 252 bytes, then the CRC of 260, which covers it (R152). -/
def State.sealRecord : State := (s.sealCrc off 252).sealCrc off 260

/-- The second CRC lies after all the first one covers. -/
theorem State.byte_sealRecord_of_lt {k : Nat} (h : k < off + 260) :
    (s.sealRecord off).byte k = (s.sealCrc off 252).byte k :=
  State.byte_sealCrc_of_outside (.inl h)

theorem State.byte_sealRecord_of_outside {k : Nat} (h252 : k < off + 252 ∨ off + 256 ≤ k)
    (h260 : k < off + 260 ∨ off + 264 ≤ k) : (s.sealRecord off).byte k = s.byte k :=
  (State.byte_sealCrc_of_outside h260).trans (State.byte_sealCrc_of_outside h252)

theorem State.bytes_sealRecord : (s.sealRecord off).bytes off 260 = (s.sealCrc off 252).bytes off 260 :=
  State.bytes_sealCrc _ off 260

theorem State.u32_sealRecord_252 : u32 (s.sealRecord off) (off + 252) = (crc32 (Safety.buf s off 252)).toNat := by
  rw [← State.u32_sealCrc, u32_eq_read32, u32_eq_read32,
    State.read32_congr fun k _ hk => s.byte_sealRecord_of_lt off (by omega)]

theorem State.u32_sealRecord_260 :
    u32 (s.sealRecord off) (off + 260) = (crc32 (Safety.buf (s.sealRecord off) off 260)).toNat := by
  rw [buf_eq_bytes, State.bytes_sealRecord, ← buf_eq_bytes]
  exact State.u32_sealCrc _ off 260

theorem State.crcMatches_sealRecord_252 : (s.sealRecord off).crcMatches off 252 = true :=
  (State.crcMatches_congr fun _ _ hk => s.byte_sealRecord_of_lt off (by omega)).trans (s.crcMatches_sealCrc off 252)

theorem State.crcMatches_sealRecord_260 : (s.sealRecord off).crcMatches off 260 = true :=
  State.crcMatches_sealCrc _ off 260

theorem State.crcAcc_sealRecord : (s.sealRecord off).crcAcc = crcRaw (Safety.buf (s.sealRecord off) off 260) := by
  rw [buf_eq_bytes, State.bytes_sealRecord]
  exact State.sealCrc_crcAcc _ off 260

/-- Sealing a record changes CRCACC and BUF and nothing else. -/
theorem State.exists_sealRecord_eq : ∃ a m, s.sealRecord off = { s with crcAcc := a, buf := m } := by
  obtain ⟨a, m, hfirst⟩ := s.exists_sealCrc_eq off 252
  obtain ⟨a', m', hsecond⟩ := (s.sealCrc off 252).exists_sealCrc_eq off 260
  exact ⟨a', m', hsecond.trans (by rw [hfirst])⟩

end

section
variable {off : Nat} (s : State)

/-- AI.GEN in range (R152). -/
theorem exec_aiGen (h : off + 264 ≤ 1024) : exec (.aiGen off) s =
    .next { s.sealRecord off with status := done s.status } := by
  change execAiGen off s = _
  rw [execAiGen, rangeCheck_of_le h, attempt_none, State.succeed_eq_done, State.sealCrc_status, State.sealCrc_status,
    State.sealRecord]

/-- AI.VFY in range, where its two comparisons answer k256 and k264 (R153). -/
theorem exec_aiVfy {k256 k264 : Bool} (h : off + 264 ≤ 1024) (h256 : s.crcMatches off 252 = k256)
    (h264 : s.crcMatches off 260 = k264) : exec (.aiVfy off) s = .next { s with
      crcAcc := crcRaw (buf s off 260)
      status := verified { s.status with crc256Ok := k256, crc264Ok := k264 }
        (if k256 || k264 then 0 else 11) } := by
  change execAiVfy off s = _
  rw [execAiVfy, rangeCheck_of_le h, attempt_none, State.judge_crc, buf_eq_bytes, h256, h264]

end

/-- The flag of a comparison, as the claims state it (R153). -/
theorem State.crcMatches_eq_of_iff {s : State} {off n : Nat} {k : Bool}
    (h : k = true ↔ (crc32 (Safety.buf s off n)).toNat = u32 s (off + n)) : s.crcMatches off n = k := by
  rw [State.crcMatches_eq_decide, Bool.eq_iff_iff, decide_eq_true_iff, h]

/-- Settles O34: the second seal stores after the first CRC and covers it. -/
theorem actuatorRecordGeneration : Obligations.ActuatorRecordGeneration := by
  intro off s h
  obtain ⟨a, m, hframe⟩ := s.exists_sealRecord_eq off
  have hacc := s.crcAcc_sealRecord off
  have h252 := s.u32_sealRecord_252 off
  have h260 := s.u32_sealRecord_260 off
  have hbytes := fun k => s.byte_sealRecord_of_outside off (k := k)
  rw [exec_aiGen s h]
  generalize s.sealRecord off = r at hframe hacc h252 h260 hbytes ⊢
  refine ⟨_, rfl, ?frame, h252, h260, fun a ha => hbytes a (by omega) (by omega)⟩
  have hraw : crcFold 0xFFFFFFFF (Safety.buf r off 260) = r.crcAcc := hacc.symm
  rw [buf_setStatus, hraw, hframe]

/-- Settles O35. -/
theorem actuatorRecordVerification : Obligations.ActuatorRecordVerification :=
  fun _ s _ _ h h256 h264 => exec_aiVfy s h (State.crcMatches_eq_of_iff h256) (State.crcMatches_eq_of_iff h264)

/-- AI.VFY accepts the record when either stored CRC matches (R151). -/
theorem aiVfy_answers {s : State} {off : Nat} {k256 k264 : Bool} (h : off + 264 ≤ 1024)
    (h256 : s.crcMatches off 252 = k256) (h264 : s.crcMatches off 260 = k264) :
    ∃ u, exec (.aiVfy off) s = .next u ∧ u.status.crc256Ok = k256 ∧ u.status.crc264Ok = k264 ∧
      u.status.ok = (k256 || k264) ∧ u.status.lastErr = if k256 || k264 then 0 else 11 := by
  refine ⟨_, exec_aiVfy s h h256 h264, rfl, rfl, ?_, rfl⟩
  cases k256 || k264 <;> rfl

/-- A byte of either part of a record whose CRCs both match, replaced (R154). -/
theorem State.crcMatches_setByte_record {t : State} {off p : Nat} {b : Byte} (h256 : t.crcMatches off 252 = true)
    (h264 : t.crcMatches off 260 = true) (hp : p < 264) (hb : b ≠ t.byte (off + p)) :
    (t.setByte (off + p) b).crcMatches off 252 = decide (256 ≤ p) ∧
      (t.setByte (off + p) b).crcMatches off 260 = false := by
  refine ⟨?_, State.crcMatches_setByte hp h264 hb⟩
  by_cases hcovered : p < 256
  · rw [decide_eq_false (Nat.not_le.mpr hcovered)]
    exact State.crcMatches_setByte hcovered h256 hb
  · have hpast : 256 ≤ p := Nat.not_lt.mp hcovered
    rw [decide_eq_true hpast, State.crcMatches_setByte_of_outside hpast, h256]

/-- Settles O36: AI.GEN leaves two matches, and a replaced byte breaks those that cover it. -/
theorem actuatorRecordCorruption : Obligations.ActuatorRecordCorruption := by
  intro off s h
  have h256 := s.crcMatches_sealRecord_252 off
  have h264 := s.crcMatches_sealRecord_260 off
  rw [exec_aiGen s h]
  generalize s.sealRecord off = r at h256 h264 ⊢
  replace h256 := (State.crcMatches_setStatus r off 252 (done s.status)).trans h256
  replace h264 := (State.crcMatches_setStatus r off 260 (done s.status)).trans h264
  refine ⟨_, rfl, ?sealed, fun p b hp hb => ?replaced⟩
  case sealed =>
    obtain ⟨u, hu, hu256, hu264, hok, herr⟩ := aiVfy_answers h h256 h264
    exact ⟨u, hu, herr, hok, hu256, hu264⟩
  case replaced =>
    obtain ⟨hp256, hp264⟩ := State.crcMatches_setByte_record h256 h264 hp hb
    obtain ⟨u, hu, hu256, hu264, hok, herr⟩ := aiVfy_answers h hp256 hp264
    refine ⟨u, hu, hu256, hu264, ?_, ?_⟩
    · rw [hok, Bool.or_false]
    · rw [herr, Bool.or_false]
      simp only [decide_eq_true_eq]

/-! ### The record with a version (R155 to R157) -/

/-- UC.VFY's last line (R157). -/
theorem State.judge_version (s : State) (v : Byte) :
    s.judge (v != Config.ucVersion) .version = { s with status := verified s.status (if v = 1 then 0 else 12) } := by
  rw [State.judge_eq_verified]
  simp only [bne_iff_ne, ne_eq, ite_not]
  rfl

section
variable {off : Nat} (s : State)

/-- UC.GEN in range (R156). -/
theorem exec_ucGen (h : off + 16 ≤ 1024) : exec (.ucGen off) s =
    .next { s.sealCrc off 12 with status := done s.status } := by
  change execUcGen off s = _
  rw [execUcGen, rangeCheck_of_le h, attempt_none, State.succeed_eq_done, State.sealCrc_status]
  rfl

/-- UC.VFY in range (R157). -/
theorem exec_ucVfy (h : off + 16 ≤ 1024) : exec (.ucVfy off) s = .next { s with
    crcAcc := crcRaw (buf s off 12)
    status := verified s.status (if s.crcMatches off 12 then if s.byte off = 1 then 0 else 12 else 11) } := by
  change execUcVfy off s = _
  simp only [execUcVfy, rangeCheck_of_le h, attempt_none, State.judge_version, buf_eq_bytes]
  cases s.crcMatches off 12 <;> rfl

end

/-- UC.VFY of a record whose CRC matches ends by the version byte (R157). -/
theorem ucVfy_of_match {s : State} {off : Nat} (h : off + 16 ≤ 1024) (hmatch : s.crcMatches off 12 = true) :
    ∃ u, exec (.ucVfy off) s = .next u ∧ u.status.lastErr = if s.byte off = 1 then 0 else 12 := by
  refine ⟨_, exec_ucVfy s h, ?_⟩
  rw [if_pos hmatch]
  rfl

/-- Settles O37: UC.GEN leaves a match and the version byte, so UC.VFY after it turns on the version. -/
theorem userConfigRecord : Obligations.UserConfigRecord := by
  intro off s h
  refine ⟨?verify, _, exec_ucGen s h, ?frame, s.u32_sealCrc off 12, fun a => State.byte_sealCrc_of_outside, ?sealed⟩
  case verify =>
    rw [exec_ucVfy s h, State.crcMatches_eq_decide]
    simp only [decide_eq_true_eq, ne_eq, ite_not]
    rfl
  case frame =>
    rw [buf_eq_bytes]
    rfl
  case sealed =>
    have hmatch := (State.crcMatches_setStatus _ off 12 (done s.status)).trans (s.crcMatches_sealCrc off 12)
    obtain ⟨u, hu, herr⟩ := ucVfy_of_match h hmatch
    have hversion : s.byte off = (s.sealCrc off 12).byte off := (State.byte_sealCrc_of_outside (by omega)).symm
    exact ⟨u, hu, hversion ▸ herr⟩

end Sys2Proof.Machine
end

section
/-! The mailbox header and the two operations on it (spec/42_frames_mailbox.md R170 to R173, R177): the 16-bit fields of
BUF, the order of the builders' checks, the five bytes that are built, and how they are parsed back. Settles O38, O41,
O42 and O43. -/

namespace Sys2Proof.Machine

open Safety

/-! ### 16-bit fields of BUF (R75) -/

theorem u16_eq_read16 (s : State) (a : Nat) : u16 s a = (s.read16 a).toNat := by
  rw [u16, State.read16, append_toNat]
  omega

theorem State.read16_congr {s t : State} {a : Nat} (h : ∀ k, a ≤ k → k < a + 2 → s.byte k = t.byte k) :
    s.read16 a = t.read16 a := by
  rw [State.read16, State.read16, h _ (by omega) (by omega), h a (by omega) (by omega)]

/-! ### Outcomes, in the terms of the claims -/

theorem State.verdict_eq_verified (s : State) (v : VCode) :
    s.verdict v = { s with status := verified s.status v.code } :=
  s.judge_eq_verified true v

/-- The last line of a builder that writes OK: FRMLEN, OK and LASTERR (R173). -/
theorem Stores.pass_eq_verified {s u : State} (hu : Stores s u) (n : Word) :
    State.pass { u with frmLen := n } = { u with frmLen := n, status := verified s.status 0 } := by
  obtain ⟨m, rfl⟩ := hu
  rfl

/-- A frame builder changes BUF, FRMLEN and STATUS and nothing else (R34). -/
theorem Stores.eq_with {s u : State} (hu : Stores s u) (n : Word) (st : Status) :
    { u with frmLen := n, status := st } = { s with buf := u.buf, frmLen := n, status := st } := by
  obtain ⟨m, rfl⟩ := hu
  rfl

/-- An operation keeps the X registers above those it writes (R22). -/
theorem exec_getX_of_le {i : Instr} {s t : State} {n : Nat} (h : exec i s = .next t)
    (hi : ∀ q ∈ xWritten i, q.val < n) {r : Reg} (hr : n ≤ r.val) : t.getX r = s.getX r :=
  xRegistersAreWrittenOnlyAsListed i s t r h fun hmem => absurd (hi r hmem) (Nat.not_lt.mpr hr)

/-! ### The checks of the builders (R173, R175, R282) -/

/-- The limit of a direction, as the claims number it (R171). -/
theorem maxPayload_eq_maxLen {write : Bool} {dir : Nat} (h : write = true ↔ dir = 1) :
    maxPayload write = maxLen dir := by
  simp only [maxPayload, maxLen, h]
  rfl

theorem badLength_eq_decide (len : XWord) (write : Bool) :
    badLength len write = decide (len.toNat = 0 ∨ maxPayload write < len.toNat) := by
  have hzero : (len == 0) = decide (len.toNat = 0) := by
    rw [beq_eq_decide]
    exact decide_eq_decide.mpr BitVec.toNat_inj.symm
  rw [badLength, hzero, Bool.decide_or]

theorem State.isWrite_iff {s : State} : s.isWrite = true ↔ s.getX 3 = 1 := beq_iff_eq

theorem State.isWrite_iff_toNat {s : State} : s.isWrite = true ↔ (s.getX 3).toNat = 1 :=
  State.isWrite_iff.trans BitVec.toNat_inj.symm

theorem State.frameSize_eq_commandSize (s : State) : s.frameSize = commandSize s := by
  simp only [State.frameSize, State.isWrite_iff]
  rfl

/-- The checks of a header inside BUF, in their order. -/
theorem headerCheck_eq {off : Nat} (h : off + 5 ≤ 1024) (s : State) : headerCheck off s =
    if 1 < (s.getX 3).toNat then some (.refuse .field)
    else if (s.getX 1).toNat = 0 ∨ maxLen (s.getX 3).toNat < (s.getX 1).toNat then some (.verdict .len)
    else if 0x2000 ≤ (s.getX 0).toNat then some (.verdict .addr)
    else none := by
  rw [headerCheck, rangeCheck_of_le h, Option.none_or, badLength_eq_decide,
    maxPayload_eq_maxLen State.isWrite_iff_toNat, badAddress]
  simp only [fieldCheck, verdictCheck, decide_eq_true_eq]
  split
  · rfl
  · split <;> rfl

theorem headerCheck_of_buildable {off : Nat} {s : State} (h : off + 5 ≤ 1024) (hs : Buildable s) :
    headerCheck off s = none := by
  obtain ⟨hdir, hpos, hmax, haddr⟩ := hs
  rw [headerCheck_eq h, if_neg (by omega), if_neg (by omega), if_neg (by omega)]

/-- The three builders make the checks of a header before anything else; MBX.CMD and MBX.CMDZ check the whole frame's
range after them. -/
theorem exec_builder {off : Nat} {i : Instr} (hi : i ∈ [Instr.mbxHdr off, Instr.mbxCmd off, Instr.mbxCmdz off])
    (s : State) : ∃ later act, exec i s = attempt i s ((headerCheck off s).or later) act ∧
      (i ≠ .mbxHdr off → later = rangeCheck off (commandSize s)) := by
  rw [← State.frameSize_eq_commandSize]
  simp only [List.mem_cons, List.not_mem_nil, or_false] at hi
  unfold exec
  rcases hi with rfl | rfl | rfl
  · exact ⟨none, _, congrArg (attempt _ s · _) Option.or_none.symm, fun hne => absurd rfl hne⟩
  · exact ⟨_, _, rfl, fun _ => rfl⟩
  · exact ⟨_, _, rfl, fun _ => rfl⟩

/-- Settles O41: the failing check is read off `headerCheck_eq`, and a header that passes leaves the frame's range. -/
theorem mailboxBuildersCheckInOrder : Obligations.MailboxBuildersCheckInOrder := by
  intro off s i h hi len dir
  obtain ⟨later, act, hexec, hlater⟩ := exec_builder hi s
  rw [hexec]
  refine ⟨fun hdir => ?field, fun hdir hlen => ?length, fun hdir hpos hmax haddr => ?address,
    fun hs hne hgt => ?range⟩
  case field =>
    rw [headerCheck_eq h, if_pos hdir]
    rfl
  case length =>
    rw [headerCheck_eq h, if_neg (Nat.not_lt.mpr hdir), if_pos hlen]
    rfl
  case address =>
    have hlen : ¬ (len = 0 ∨ maxLen dir < len) := by omega
    rw [headerCheck_eq h, if_neg (Nat.not_lt.mpr hdir), if_neg hlen, if_pos haddr]
    rfl
  case range =>
    rw [headerCheck_of_buildable h hs, hlater hne, Option.none_or, rangeCheck_of_gt hgt]
    rfl

/-! ### The header that is built (R170, R172, R173) -/

/-- Bytes 2..3 as a number, each field weighing 2 to the width of those below it. -/
theorem headerHalf_toNat {dir len : XWord} (seq : XWord) (hdir : dir.toNat ≤ 1) (hpos : 1 ≤ len.toNat)
    (hlen : len.toNat ≤ 4096) :
    (headerHalf dir seq len).toNat = (len.toNat - 1) + 4096 * (seq.toNat % 8) + 32768 * dir.toNat := by
  have hsub : (len - 1).toNat = len.toNat - 1 := BitVec.toNat_sub_of_le hpos
  simp only [headerHalf, append_toNat, BitVec.extractLsb'_toNat, Nat.shiftRight_zero, hsub, Config.lenW, Config.seqW]
  omega

section
variable (s : State) (off n : Nat)

/-- The sealing byte is the checksum of the bytes before it, as they stand after sealing (R172). -/
theorem State.byte_sealCk_self :
    (s.sealCk off n).byte (off + n) = rotr8 (cks (Safety.buf (s.sealCk off n) off n)) := by
  have hkept : (s.sealCk off n).bytes off n = s.bytes off n :=
    State.bytes_congr off n fun k _ hk => State.byte_sealCk_of_ne (by omega)
  rw [State.byte_sealCk, if_pos rfl, buf_eq_bytes, hkept]
  rfl

theorem State.read16_putHeader_address : (s.putHeader off).read16 off = low16 (s.getX 0) := by
  have hkept : (s.putHeader off).read16 off = (s.write16 off (low16 (s.getX 0))).read16 off :=
    State.read16_congr fun k _ hk =>
      (State.byte_sealCk_of_ne (by change k ≠ off + 4; omega)).trans (State.byte_write16_of_outside (by omega) _)
  rw [hkept, State.read16_write16]

theorem State.read16_putHeader_command :
    (s.putHeader off).read16 (off + 2) = headerHalf (s.getX 3) (s.getX 2) (s.getX 1) :=
  (State.read16_congr fun k _ hk => State.byte_sealCk_of_ne (by change k ≠ off + 4; omega)).trans
    (State.read16_write16 _ (off + 2) _)

end

/-- Whether a state holds a header is told by its five bytes. -/
theorem hasHeader_congr {s t u : State} {off : Nat} (h : ∀ k, off ≤ k → k < off + 5 → u.byte k = t.byte k)
    (ht : HasHeader s t off) : HasHeader s u off := by
  simp only [HasHeader, u16_eq_read16, buf_eq_bytes] at ht ⊢
  rwa [State.read16_congr fun k _ _ => h k (by omega) (by omega),
    State.read16_congr fun k _ _ => h k (by omega) (by omega), h (off + 4) (by omega) (by omega),
    State.bytes_congr off 4 fun k _ _ => h k (by omega) (by omega), State.bytes_congr off 5 h]

/-- Both directions' limits fit the length field (R171). -/
theorem length_le_of_buildable {s : State} (hs : Buildable s) : (s.getX 1).toNat ≤ 4096 := by
  obtain ⟨-, -, hmax, -⟩ := hs
  unfold maxLen at hmax
  split at hmax <;> omega

theorem putHeader_hasHeader {s : State} (hs : Buildable s) (off : Nat) : HasHeader s (s.putHeader off) off := by
  have hlen := length_le_of_buildable hs
  obtain ⟨hdir, hpos, -, haddr⟩ := hs
  refine ⟨?address, ?command, State.byte_sealCk_self _ off 4, ?valid⟩
  case address =>
    rw [u16_eq_read16, State.read16_putHeader_address, low16_toNat]
    omega
  case command => rw [u16_eq_read16, State.read16_putHeader_command, headerHalf_toNat _ hdir hpos hlen]
  case valid =>
    rw [buf_eq_bytes]
    exact cks_of_sealed fun _ => rfl

/-- MBX.HDR where it builds (R173). -/
theorem exec_mbxHdr {off : Nat} {s : State} (h : off + 5 ≤ 1024) (hs : Buildable s) : exec (.mbxHdr off) s =
    .next { s.putHeader off with frmLen := 5, status := verified s.status 0 } := by
  change execMbxHdr off s = _
  rw [execMbxHdr, headerCheck_of_buildable h hs, attempt_none, (Stores.putHeader s off).pass_eq_verified]
  rfl

/-- Settles O38. -/
theorem mailboxHeaderIsBuilt : Obligations.MailboxHeaderIsBuilt := fun off s h hs =>
  ⟨_, exec_mbxHdr h hs, (Stores.putHeader s off).eq_with _ _, putHeader_hasHeader hs off,
    fun _ => State.byte_putHeader_of_outside⟩

/-! ### The header that is parsed (R177) -/

theorem halfLength_toNat (c : Half) : (halfLength c).toNat = c.toNat % 4096 + 1 := by
  have hlow : (c.extractLsb' 0 Config.lenW).toNat = c.toNat % 4096 := BitVec.extractLsb'_toNat 0 12 c
  rw [halfLength, BitVec.toNat_add, zext_toNat _ (by decide), hlow]
  exact Nat.mod_eq_of_lt (by change _ + 1 < 2 ^ 32; omega)

theorem halfSequence_toNat (c : Half) : (c.extractLsb' Config.lenW Config.seqW).toNat = c.toNat / 4096 % 8 := by
  rw [BitVec.extractLsb'_toNat, Nat.shiftRight_eq_div_pow]
  rfl

/-- The write_not_read flag is the top bit of the command half (R170). -/
theorem halfDirection_toNat (c : Half) : (c.getLsbD 15).toNat = c.toNat / 32768 := by
  have := c.isLt
  rw [BitVec.getLsbD, Nat.toNat_testBit]
  omega

section
variable (s : State) (a c : Half)

/-- X0..X3 after a header is delivered, as numbers. -/
theorem State.deliverHeader_fields :
    ((s.deliverHeader a c).getX 0).toNat = a.toNat ∧
    ((s.deliverHeader a c).getX 1).toNat = c.toNat % 4096 + 1 ∧
    ((s.deliverHeader a c).getX 2).toNat = c.toNat / 4096 % 8 ∧
    ((s.deliverHeader a c).getX 3).toNat = c.toNat / 32768 := by
  simp only [State.deliverHeader, State.setX_getX]
  refine ⟨zext_toNat a (by decide), halfLength_toNat c, ?sequence, ?direction⟩
  case sequence => exact (zext_toNat _ (by decide)).trans (halfSequence_toNat c)
  case direction => exact (zextBit_toNat _).trans (halfDirection_toNat c)

/-- The last lines of MBX.UNHDR: V_ADDR before V_LEN (R177). -/
theorem State.judgeHeader_eq_verified : s.judgeHeader a c = { s with
    status := verified s.status
      (if 0x2000 ≤ a.toNat then 9 else if maxLen (c.toNat / 32768) < c.toNat % 4096 + 1 then 8 else 0) } := by
  have hmax : maxPayload (c.getLsbD 15) = maxLen (c.toNat / 32768) :=
    maxPayload_eq_maxLen (by rw [← halfDirection_toNat, Bool.toNat_eq_one])
  have haddr : badAddress (zext a) = decide (0x2000 ≤ a.toNat) := by
    rw [badAddress, zext_toNat a (by decide)]
    rfl
  rw [State.judgeHeader, haddr, hmax, halfLength_toNat, State.judge_eq_verified, State.verdict_eq_verified]
  simp only [decide_eq_true_eq]
  split <;> rfl

end

section
variable {off : Nat} (s : State)

/-- MBX.UNHDR in range, by whether the five bytes are a ChecksumFrame (R177). -/
theorem exec_mbxUnhdr (h : off + 5 ≤ 1024) : exec (.mbxUnhdr off) s =
    .next (if cks (buf s off 5) = 0
      then (s.deliverHeader (s.read16 off) (s.read16 (off + 2))).judgeHeader (s.read16 off) (s.read16 (off + 2))
      else { s with status := verified s.status 10 }) := by
  change execMbxUnhdr off s = _
  rw [execMbxUnhdr, rangeCheck_of_le h, Option.none_or, buf_eq_bytes, verdictCheck]
  simp only [bne_iff_ne, ne_eq, ite_not]
  split <;> rfl

end

/-- Settles O42: what is delivered, then what is judged, field by field. -/
theorem mailboxHeaderIsParsed : Obligations.MailboxHeaderIsParsed := by
  intro off s h
  have hexec := exec_mbxUnhdr s h
  refine ⟨fun hbad => by rw [hexec, if_neg hbad], fun hvalid => ?parsed⟩
  rw [if_pos hvalid, State.judgeHeader_eq_verified] at hexec
  obtain ⟨haddr, hlen, hseq, hdir⟩ := s.deliverHeader_fields (s.read16 off) (s.read16 (off + 2))
  have hwritten : ∀ q ∈ ([0, 1, 2, 3] : List Reg), q.val < 4 := by decide
  refine ⟨_, hexec, ?_⟩
  rw [u16_eq_read16, u16_eq_read16]
  exact ⟨rfl, haddr, hlen, hseq, hdir, fun _ => exec_getX_of_le hexec hwritten⟩

/-- Settles O43: the bytes MBX.HDR builds are numbers below the limits that MBX.UNHDR tests. -/
theorem builtHeaderParsesBack : Obligations.BuiltHeaderParsesBack := by
  intro off s h hs
  obtain ⟨t, hbuild, -, ⟨haddr, hhalf, -, hvalid⟩, -⟩ := mailboxHeaderIsBuilt off s h hs
  obtain ⟨u, hparse, hframe, h0, h1, h2, h3, -⟩ := (mailboxHeaderIsParsed off t h).2 hvalid
  have hlen := length_le_of_buildable hs
  obtain ⟨hdir, hpos, hmax, hfits⟩ := hs
  have hdirection : u16 t (off + 2) / 32768 = (s.getX 3).toNat := by omega
  have hlength : u16 t (off + 2) % 4096 + 1 = (s.getX 1).toNat := by omega
  have hsequence : u16 t (off + 2) / 4096 % 8 = (s.getX 2).toNat % 8 := by omega
  have hstatus : u.status = verified t.status 0 := by
    rw [hframe, hdirection, hlength, haddr, if_neg (by omega), if_neg (by omega)]
  exact ⟨t, u, hbuild, hparse, hstatus ▸ rfl, hstatus ▸ rfl, BitVec.eq_of_toNat_eq (h0.trans haddr),
    BitVec.eq_of_toNat_eq (h1.trans hlength), h2.trans hsequence, BitVec.eq_of_toNat_eq (h3.trans hdirection)⟩

end Sys2Proof.Machine
end

section
/-! The frames built on the header and the response (spec/42_frames_mailbox.md R174 to R176, R178, R179): the data
region of a write is sealed after the header, and on its own. Settles O39, O40 and O44. -/

namespace Sys2Proof.Machine

open Safety

/-! ### The data region (R174 to R176) -/

theorem State.putHeader_getX (s : State) (off : Nat) (r : Reg) : (s.putHeader off).getX r = s.getX r := rfl

theorem State.bytes_putHeader_data (s : State) (off n : Nat) :
    (s.putHeader off).bytes (off + 5) n = s.bytes (off + 5) n :=
  State.bytes_congr _ n fun _ hk _ => State.byte_putHeader_of_outside (.inr hk)

section
variable {s : State}

theorem State.sealData_of_write (hw : s.getX 3 = 1) (off : Nat) :
    s.sealData off = s.sealCk (off + 5) (s.getX 1).toNat :=
  if_pos (State.isWrite_iff.mpr hw)

theorem State.zeroData_of_write (hw : s.getX 3 = 1) (off : Nat) :
    s.zeroData off = s.store (off + 5) (List.replicate (s.getX 1).toNat 0) :=
  if_pos (State.isWrite_iff.mpr hw)

/-- MBX.CMDZ's fill of the data region of a write (R176). -/
theorem State.byte_zeroData (hw : s.getX 3 = 1) (off : Nat) {k : Nat} (hk : k < (s.getX 1).toNat) :
    (s.zeroData off).byte (off + 5 + k) = 0 := by
  rw [State.zeroData_of_write hw, State.byte_store, if_pos (by rw [List.length_replicate]; omega),
    Nat.add_sub_cancel_left, List.getD_replicate _ hk]

theorem State.bytes_zeroData (hw : s.getX 3 = 1) (off : Nat) :
    (s.zeroData off).bytes (off + 5) (s.getX 1).toNat = List.replicate (s.getX 1).toNat 0 := by
  refine List.eq_replicate_iff.mpr ⟨State.bytes_length _ _ _, fun b hb => ?_⟩
  rw [State.bytes_eq_map] at hb
  obtain ⟨k, hk, rfl⟩ := List.mem_map.mp hb
  exact State.byte_zeroData hw off (List.mem_range.mp hk)

/-- The checks pass when header and frame fit BUF (R175). -/
theorem commandCheck_of_buildable {off : Nat} (hs : Buildable s) (h : off + commandSize s ≤ 1024) :
    commandCheck off s = none := by
  have hhdr : off + 5 ≤ 1024 := by
    unfold commandSize at h
    split at h <;> omega
  rw [commandCheck, headerCheck_of_buildable hhdr hs, Option.none_or, State.frameSize_eq_commandSize,
    rangeCheck_of_le h]

/-- MBX.CMD where it builds (R175). -/
theorem exec_mbxCmd {off : Nat} (hs : Buildable s) (h : off + commandSize s ≤ 1024) : exec (.mbxCmd off) s =
    .next { (s.putHeader off).sealData off with
      frmLen := BitVec.ofNat 32 (commandSize s), status := verified s.status 0 } := by
  change execMbxCmd off s = _
  rw [execMbxCmd, commandCheck_of_buildable hs h, attempt_none, State.frameSize_eq_commandSize,
    ((Stores.putHeader s off).trans (Stores.sealData _ off)).pass_eq_verified]

/-- MBX.CMDZ where it builds (R176). -/
theorem exec_mbxCmdz {off : Nat} (hs : Buildable s) (h : off + commandSize s ≤ 1024) : exec (.mbxCmdz off) s =
    .next { ((s.putHeader off).zeroData off).sealData off with
      frmLen := BitVec.ofNat 32 (commandSize s), status := verified s.status 0 } := by
  change execMbxCmdz off s = _
  rw [execMbxCmdz, commandCheck_of_buildable hs h, attempt_none, State.frameSize_eq_commandSize,
    (((Stores.putHeader s off).trans (Stores.zeroData _ off)).trans (Stores.sealData _ off)).pass_eq_verified]

end

section
variable {s v : State} {off : Nat}

/-- The data of a write lie after the header (R174). -/
theorem hasHeader_zeroData (h : HasHeader s v off) : HasHeader s (v.zeroData off) off :=
  hasHeader_congr (fun _ _ hk => State.byte_zeroData_of_outside fun _ => .inl hk) h

/-- The data checksum lies after the header too (R174). -/
theorem hasHeader_sealData (h : HasHeader s v off) : HasHeader s (v.sealData off) off :=
  hasHeader_congr (fun _ _ _ => State.byte_sealData_of_ne fun _ => by omega) h

/-- The data region of a write, sealed: its checksum byte, and that it is a ChecksumFrame (R179). -/
theorem sealData_region (hw : v.getX 3 = 1) (off : Nat) :
    (v.sealData off).byte (off + 5 + (v.getX 1).toNat) = rotr8 (cks (v.bytes (off + 5) (v.getX 1).toNat)) ∧
      cks (Safety.buf (v.sealData off) (off + 5) ((v.getX 1).toNat + 1)) = 0 := by
  rw [State.sealData_of_write hw, State.byte_sealCk, if_pos rfl, buf_eq_bytes]
  exact ⟨rfl, cks_of_sealed fun _ => rfl⟩

/-- MBX.CMD seals the host's data (R175). -/
theorem region_of_mbxCmd (hw : s.getX 3 = 1) (off : Nat) :
    ((s.putHeader off).sealData off).byte (off + 5 + (s.getX 1).toNat) =
        rotr8 (cks (Safety.buf s (off + 5) (s.getX 1).toNat)) ∧
      cks (Safety.buf ((s.putHeader off).sealData off) (off + 5) ((s.getX 1).toNat + 1)) = 0 := by
  have hregion := sealData_region (v := s.putHeader off) hw off
  rwa [State.bytes_putHeader_data, ← buf_eq_bytes, State.putHeader_getX] at hregion

/-- MBX.CMDZ seals zeros (R176). -/
theorem region_of_mbxCmdz (hw : s.getX 3 = 1) (off : Nat) :
    (((s.putHeader off).zeroData off).sealData off).byte (off + 5 + (s.getX 1).toNat) =
        rotr8 (cks (List.replicate (s.getX 1).toNat 0)) ∧
      cks (Safety.buf (((s.putHeader off).zeroData off).sealData off) (off + 5) ((s.getX 1).toNat + 1)) = 0 := by
  have hregion := sealData_region (v := (s.putHeader off).zeroData off) ((State.zeroData_getX 3).trans hw) off
  rwa [State.zeroData_getX, State.bytes_zeroData (s := s.putHeader off) hw, State.putHeader_getX] at hregion

/-- The zeros MBX.CMDZ fills in are not touched by the seal (R176). -/
theorem data_of_mbxCmdz (hw : s.getX 3 = 1) (off : Nat) {k : Nat} (hk : k < (s.getX 1).toNat) :
    (((s.putHeader off).zeroData off).sealData off).byte (off + 5 + k) = 0 := by
  have hbefore : off + 5 + k ≠ off + 5 + (((s.putHeader off).zeroData off).getX 1).toNat := by
    rw [State.zeroData_getX, State.putHeader_getX]
    omega
  rw [State.byte_sealData_of_ne fun _ => hbefore]
  exact State.byte_zeroData (s := s.putHeader off) hw off hk

end

/-- Settles O39: the header and the host's data stay, and the data are sealed on their own. -/
theorem mailboxCommandIsBuilt : Obligations.MailboxCommandIsBuilt := by
  intro off s hs h
  have hexec := exec_mbxCmd hs h
  have hstores := (Stores.putHeader s off).trans (Stores.sealData _ off)
  have hheader := hasHeader_sealData (putHeader_hasHeader hs off)
  have hregion := region_of_mbxCmd (s := s) (off := off)
  generalize (s.putHeader off).sealData off = u at hexec hstores hheader hregion
  exact ⟨_, hexec, hstores.eq_with _ _, hheader, hregion, fun _ => execMbxCmd_byte hexec⟩

/-- Settles O40: the header stays, the data are filled and then sealed. -/
theorem zeroFilledMailboxCommandIsBuilt : Obligations.ZeroFilledMailboxCommandIsBuilt := by
  intro off s hs h
  have hexec := exec_mbxCmdz hs h
  have hstores := ((Stores.putHeader s off).trans (Stores.zeroData _ off)).trans (Stores.sealData _ off)
  have hheader := hasHeader_sealData (hasHeader_zeroData (putHeader_hasHeader hs off))
  have hregion := region_of_mbxCmdz (s := s) (off := off)
  have hdata (hw : s.getX 3 = 1) (k : Nat) := data_of_mbxCmdz hw off (k := k)
  generalize ((s.putHeader off).zeroData off).sealData off = u at hexec hstores hheader hregion hdata
  exact ⟨_, hexec, hstores.eq_with _ _, hheader, fun hw => ⟨hdata hw, hregion hw⟩,
    fun _ => execMbxCmdz_byte hexec⟩

/-! ### The response (R178) -/

/-- MBX.RSPV: the length comes before the range, and both before the fold. -/
theorem exec_mbxRspv (off : Nat) (s : State) : exec (.mbxRspv off) s =
    attempt (.mbxRspv off) s
      ((if (s.getX 1).toNat = 0 ∨ 511 < (s.getX 1).toNat then some (.verdict .len) else none).or
        (rangeCheck off ((s.getX 1).toNat + 1)))
      fun _ => { s with
        ckAcc := cks (Safety.buf s off ((s.getX 1).toNat + 1))
        status := verified s.status (if cks (Safety.buf s off ((s.getX 1).toNat + 1)) = 0 then 0 else 10) } := by
  change execMbxRspv off s = _
  rw [execMbxRspv, badLength_eq_decide, State.judge_foldRange, verdictCheck]
  simp only [decide_eq_true_eq]
  rfl

/-- Settles O44. -/
theorem mailboxResponseVerification : Obligations.MailboxResponseVerification := by
  intro off s len
  rw [exec_mbxRspv]
  refine ⟨fun hbad => ?length, fun hpos hmax hgt => ?range, fun hpos hmax hle => ?fold⟩
  case length =>
    rw [if_pos hbad]
    rfl
  case range =>
    rw [if_neg (by omega), Option.none_or, rangeCheck_of_gt (n := len + 1) hgt]
    rfl
  case fold => rw [if_neg (by omega), Option.none_or, rangeCheck_of_le (n := len + 1) hle, attempt_none]

end Sys2Proof.Machine
end

section
/-! The SPI-EEPROM frames (spec/42_frames_mailbox.md R180 to R183). Settles O45. -/

namespace Sys2Proof.Machine

open Safety

/-! ### The command frame (R180) -/

section
variable (s : State) (off : Nat)

/-- What SPI.PACK makes of BUF (R181). -/
def State.putSpi : State :=
  (s.write16 off (low16 (s.getX 1))).setByte (off + 2) (0#4 ++ (s.getX 0).extractLsb' 0 4)

theorem State.u16_putSpi : u16 (s.putSpi off) off = (s.getX 1).toNat % 65536 := by
  have hkept : (s.putSpi off).read16 off = (s.write16 off (low16 (s.getX 1))).read16 off :=
    State.read16_congr fun _ _ hk => State.byte_setByte_of_ne (by omega) _
  rw [u16_eq_read16, hkept, State.read16_write16, low16_toNat]

theorem State.byte_putSpi_toNat : ((s.putSpi off).byte (off + 2)).toNat = (s.getX 0).toNat % 16 := by
  rw [State.putSpi, State.byte_setByte, if_pos rfl, append_toNat, BitVec.extractLsb'_toNat, Nat.shiftRight_zero]
  exact Nat.zero_add _

theorem State.byte_putSpi_of_outside {off k : Nat} (h : k < off ∨ off + 3 ≤ k) : (s.putSpi off).byte k = s.byte k :=
  (State.byte_setByte_of_ne (by omega) _).trans (State.byte_write16_of_outside (by omega) _)

/-- What SPI.UNPACK makes of X0..X2 (R182). -/
def State.deliverSpi : State :=
  ((s.setX 1 (zext (s.read16 off))).setX 0 (zext ((s.byte (off + 2)).extractLsb' 0 4))).setX 2
    (zextBit ((s.byte (off + 2)).getLsbD 5))

theorem State.deliverSpi_fields :
    ((s.deliverSpi off).getX 0).toNat = (s.byte (off + 2)).toNat % 16 ∧
    ((s.deliverSpi off).getX 1).toNat = u16 s off ∧
    ((s.deliverSpi off).getX 2).toNat = (s.byte (off + 2)).toNat / 32 % 2 := by
  simp only [State.deliverSpi, State.setX_getX]
  refine ⟨?code, ?page, ?busy⟩
  case code => exact (zext_toNat _ (by decide)).trans (BitVec.extractLsb'_toNat 0 4 _)
  case page => exact (zext_toNat _ (by decide)).trans (u16_eq_read16 s off).symm
  case busy => exact (zextBit_toNat _).trans (Nat.toNat_testBit _ 5)

end

/-! ### The operations (R181 to R183) -/

section
variable {off : Nat} (s : State)

/-- SPI.PACK in range (R181). -/
theorem exec_spiPack (h : off + 3 ≤ 1024) : exec (.spiPack off) s =
    .next (if 15 < (s.getX 0).toNat ∨ 0xFFFF < (s.getX 1).toNat then refused s 5 (encode (.spiPack off))
      else { s.putSpi off with frmLen := 3, status := done s.status }) := by
  change execSpiPack off s = _
  rw [execSpiPack, rangeCheck_of_le h, Option.none_or, fieldCheck]
  simp only [Bool.or_eq_true, decide_eq_true_eq]
  split <;> rfl

/-- SPI.UNPACK in range (R182). -/
theorem exec_spiUnpack (h : off + 3 ≤ 1024) : exec (.spiUnpack off) s = .next (s.deliverSpi off).succeed := by
  change execSpiUnpack off s = _
  rw [execSpiUnpack, rangeCheck_of_le h, attempt_none, State.deliverSpi]

/-- EES.UNPACK in range (R183). -/
theorem exec_eesUnpack (h : off + 1 ≤ 1024) : exec (.eesUnpack off) s =
    .next (s.setX 0 (zextBit ((s.byte off).getLsbD 7))).succeed := by
  change execEesUnpack off s = _
  rw [execEesUnpack, rangeCheck_of_le h, attempt_none]

end

/-- Settles O45: the operands SPI.PACK accepts are those its fields hold whole. -/
theorem spiFrames : Obligations.SpiFrames := by
  refine ⟨fun off s h => ⟨fun hcode hpage => ?pack, fun hbad => ?refused, ?unpack⟩, fun off s h => ?ready⟩
  case pack =>
    have hfits : ¬ (15 < (s.getX 0).toNat ∨ 0xFFFF < (s.getX 1).toNat) := by omega
    rw [exec_spiPack s h, if_neg hfits]
    refine ⟨_, rfl, rfl, ?page, ?code, fun a => s.byte_putSpi_of_outside⟩
    case page => exact (s.u16_putSpi off).trans (Nat.mod_eq_of_lt (by omega))
    case code => exact (s.byte_putSpi_toNat off).trans (Nat.mod_eq_of_lt (by omega))
  case refused => rw [exec_spiPack s h, if_pos hbad]
  case unpack =>
    obtain ⟨hcode, hpage, hbusy⟩ := s.deliverSpi_fields off
    have hwritten : ∀ q ∈ ([0, 1, 2] : List Reg), q.val < 3 := by decide
    have hexec := exec_spiUnpack s h
    exact ⟨_, hexec, rfl, hpage, hcode, hbusy, fun _ => exec_getX_of_le hexec hwritten⟩
  case ready =>
    refine ⟨_, exec_eesUnpack s h, rfl, ?_, fun r hr => State.setX_getX_ne s _ hr⟩
    have hbit : (s.byte off).toNat / 2 ^ 7 < 2 := by
      have := (s.byte off).isLt
      omega
    rw [State.succeed_getX, State.setX_getX_self]
    exact (zextBit_toNat _).trans ((Nat.toNat_testBit _ 7).trans (Nat.mod_eq_of_lt hbit))

end Sys2Proof.Machine
end

section
/-! The frames exchanged with the device every cycle (spec/43_frames_cycle.md R200 to R205, R208): the command frame
that CYC.PACK builds after it has applied the reset request, and the status frame whose fields CYC.UNPACK delivers.
Settles O46 and O47. -/

namespace Sys2Proof.Machine

open Safety

/-! ### The operands of a command (R201, R202) -/

/-- The test of R202 fails on exactly the operands the claims call packable. -/
theorem badCycleOperands_iff {s : State} : badCycleOperands s = true ↔ ¬ Packable s := by
  simp only [badCycleOperands, outsideS16, Bool.or_eq_true, decide_eq_true_eq, Packable]
  omega

/-- The model reads the halt request as bit 0 of X3, the claims by division (R201). -/
theorem State.haltRequest_eq (s : State) : s.haltRequest = ((s.getX 3).toNat % 2 == 1) := by
  simp only [State.haltRequest, BitVec.getLsbD, Nat.testBit_eq_decide_div_mod_eq, pow_zero, Nat.div_one, beq_eq_decide]

/-- The reset request masks the three flags of the latch, and no request leaves them as they are (R201). -/
theorem State.applyReset_eq (s : State) : s.applyReset = { s with
    status := { s.status with
      errLatch := s.status.errLatch && !s.resetRequest
      dropFail := s.status.dropFail && !s.resetRequest
      jump := s.status.jump && !s.resetRequest } } := by
  cases hr : s.resetRequest with
  | true => simp only [State.applyReset_of_request hr, Bool.not_true, Bool.and_false]
  | false => simp only [State.applyReset_of_no_request hr, Bool.not_false, Bool.and_true]

/-- The mode bits of an enabled frame and of the reset request are separate (R200, R201). -/
theorem State.modeByte_toNat (s : State) : s.modeByte.toNat =
    (if s.getX 0 = 1 ∧ s.haltRequest = false ∧ s.status.errLatch = false then 3 else 0) +
      (if s.resetRequest then 16 else 0) := by
  simp only [State.modeByte, Bool.and_eq_true, beq_iff_eq, Bool.not_eq_true', and_assoc]
  split <;> split <;> rfl

/-- The low half of a register, read as signed (R7). -/
theorem low16_toInt (v : XWord) : (low16 v).toInt = Int.bmod v.toInt (2 ^ 16) :=
  calc (low16 v).toInt = Int.bmod v.toNat (2 ^ 16) := by
        rw [BitVec.toInt_eq_toNat_bmod, low16_toNat, Int.natCast_emod]
        exact Int.emod_bmod _ (2 ^ 16)
    _ = Int.bmod v.toInt (2 ^ 16) := by rw [BitVec.toInt_eq_toNat_bmod v, Int.bmod_bmod_of_dvd (by decide)]

/-- The currents CYC.PACK accepts are those the field holds whole (R202). -/
theorem low16_toInt_of_fits {v : XWord} (hlo : -32768 ≤ v.toInt) (hhi : v.toInt ≤ 32767) :
    (low16 v).toInt = v.toInt :=
  (low16_toInt v).trans (Int.bmod_eq_of_le (by omega) (by omega))

/-! ### Fields of BUF as numbers (R7, R75) -/

section
variable (s : State) (a : Nat)

theorem signed_u16 : signed 16 (u16 s a) = (s.read16 a).toInt := by
  rw [signed, u16_eq_read16, BitVec.toInt_eq_toNat_bmod]

theorem zext_read32_toNat : (zext (s.read32 a)).toNat = u32 s a :=
  (zext_toNat _ (by decide)).trans (u32_eq_read32 s a).symm

theorem zext_read16_toNat : (zext (s.read16 a)).toNat = u16 s a :=
  (zext_toNat _ (by decide)).trans (u16_eq_read16 s a).symm

theorem zext_byte_toNat : (zext (s.byte a)).toNat = (s.byte a).toNat :=
  zext_toNat _ (by decide)

theorem sext_read16_toInt : (sext (s.read16 a)).toInt = signed 16 (u16 s a) :=
  (sext_toInt _ (by decide)).trans (signed_u16 s a).symm

end

/-! ### The command frame (R200, R202) -/

section
variable (s : State) (off : Nat)

/-- What CYC.PACK makes of BUF from a state in which the reset request has been applied (R201, R202). -/
def State.putCycle : State := (s.store off s.cycleBody).sealCk off 7

theorem Stores.putCycle : Stores s (s.putCycle off) := (Stores.store s off _).trans (Stores.sealCk _ off 7)

/-- The seal leaves the seven bytes before it as they were stored. -/
theorem State.byte_putCycle {k : Nat} (hk : k < 7) : (s.putCycle off).byte (off + k) = s.cycleBody.getD k 0 := by
  have hin : off ≤ off + k ∧ off + k < off + s.cycleBody.length := by
    change off ≤ off + k ∧ off + k < off + 7
    omega
  rw [State.putCycle, State.byte_sealCk_of_ne (by omega), State.byte_store, if_pos hin, Nat.add_sub_cancel_left]

/-- The current stands in bytes 4 and 5 (R200). -/
theorem State.read16_putCycle_current : (s.putCycle off).read16 (off + 4) = low16 (s.getX 1) := by
  rw [State.read16, s.byte_putCycle off (k := 5) (by decide), s.byte_putCycle off (k := 4) (by decide)]
  exact join16 _

end

/-- CYC.PACK in range: it builds where its operands fit, and is refused as a whole where they do not (R202). -/
theorem exec_cycPack {off : Nat} (s : State) (h : off + 8 ≤ 1024) : exec (.cycPack off) s =
    .next (if Packable s then
        { s.applyReset.putCycle off with frmLen := 8, status := done s.applyReset.status }
      else refused s 5 (encode (.cycPack off))) := by
  change execCycPack off s = _
  rw [execCycPack, rangeCheck_of_le h, Option.none_or, fieldCheck]
  simp only [badCycleOperands_iff, ite_not]
  split <;> rfl

/-- The frame of packable operands after the mode byte (R200, R202). -/
theorem putCycle_fields {s : State} (hs : Packable s) (off : Nat) :
    ((s.putCycle off).byte (off + 1)).toNat = (s.getX 2).toNat ∧ u16 (s.putCycle off) (off + 2) = 0 ∧
    signed 16 (u16 (s.putCycle off) (off + 4)) = (s.getX 1).toInt ∧ (s.putCycle off).byte (off + 6) = 0 ∧
    (s.putCycle off).byte (off + 7) = rotr8 (cks (Safety.buf (s.putCycle off) off 7)) ∧
    cks (Safety.buf (s.putCycle off) off 8) = 0 := by
  obtain ⟨-, -, hout, hlo, hhi⟩ := hs
  refine ⟨?digital, ?pwm, ?current, s.byte_putCycle off (k := 6) (by decide), State.byte_sealCk_self _ off 7,
    ?valid⟩
  case digital =>
    have hbyte : (s.putCycle off).byte (off + 1) = low8 (s.getX 2) := s.byte_putCycle off (by decide)
    rw [hbyte, low8_toNat]
    exact Nat.mod_eq_of_lt (by omega)
  case pwm =>
    have hlow : (s.putCycle off).byte (off + 2) = 0 := s.byte_putCycle off (by decide)
    have hhigh : (s.putCycle off).byte (off + 2 + 1) = 0 := s.byte_putCycle off (k := 3) (by decide)
    rw [u16, hlow, hhigh]
    rfl
  case current => rw [signed_u16, State.read16_putCycle_current, low16_toInt_of_fits hlo hhi]
  case valid =>
    rw [buf_eq_bytes]
    exact cks_of_sealed fun _ => rfl

/-- The mode byte in the terms of the claims (R201). -/
theorem byte_putCycle_mode (s : State) (off : Nat) : ((s.putCycle off).byte off).toNat =
    (if s.getX 0 = 1 ∧ ((s.getX 3).toNat % 2 == 1) = false ∧ s.status.errLatch = false then 3 else 0) +
      (if (s.getX 3).toNat / 2 % 2 == 1 then 16 else 0) := by
  have hbyte : (s.putCycle off).byte off = s.modeByte := s.byte_putCycle off (k := 0) (by decide)
  rw [hbyte, State.modeByte_toNat, State.haltRequest_eq, State.resetRequest_eq s off, isResetCommand]

/-- Settles O46: the frame is built from the state in which the reset request has been applied. -/
theorem cycleCommandIsBuiltOrRefused : Obligations.CycleCommandIsBuiltOrRefused := by
  intro off s h
  have hexec := exec_cycPack s h
  refine ⟨fun hbad => by rw [hexec, if_neg hbad], fun hs => ?_⟩
  have hreset : s.resetRequest = ((s.getX 3).toNat / 2 % 2 == 1) := s.resetRequest_eq off
  rw [if_pos hs] at hexec
  generalize hu : s.applyReset = u at hexec
  rw [State.applyReset_eq, hreset] at hu
  have hmode := byte_putCycle_mode u off
  have hstores := Stores.putCycle u off
  have hfields := putCycle_fields (s := u) (by rw [← hu]; exact hs) off
  generalize u.putCycle off = v at hexec hmode hstores hfields
  subst hu
  obtain ⟨hout, hpwm, hcurrent, hpad, hchecksum, hvalid⟩ := hfields
  exact ⟨_, hexec, ⟨hstores.eq_with 8 _, hmode⟩, hout, hpwm, hcurrent, hpad, hchecksum, hvalid,
    fun _ => execCycPack_byte hexec⟩

/-! ### The status frame (R203, R205, R208) -/

theorem maxU_toNat {n : Nat} (a b : BitVec n) : (maxU a b).toNat = max a.toNat b.toNat := by
  rw [maxU, BitVec.ult_eq_decide, max_def_lt]
  simp only [decide_eq_true_eq]
  split <;> rfl

section
variable {off : Nat} {s : State}

/-- CYC.UNPACK of a frame with a bad checksum (R205). -/
theorem exec_cycUnpack_of_bad (h : off + 44 ≤ 1024) (hbad : cks (Safety.buf s off 44) ≠ 0) :
    exec (.cycUnpack off) s =
      .next { s with ckAcc := cks (Safety.buf s off 44), status := verified s.status 10 } := by
  rw [buf_eq_bytes] at hbad ⊢
  change execCycUnpack off s = _
  rw [execCycUnpack, rangeCheck_of_le h, attempt_none, if_pos (bne_iff_ne.mpr hbad)]
  rfl

/-- CYC.UNPACK of a valid frame (R205, R208). -/
theorem exec_cycUnpack_of_valid (h : off + 44 ≤ 1024) (hvalid : cks (Safety.buf s off 44) = 0) :
    ∃ t, exec (.cycUnpack off) s = .next t ∧
      t = { s with x := t.x, ckAcc := 0, maxBt := t.maxBt, maxBrt := t.maxBrt, status := verified s.status 0 } ∧
      (∀ r, t.getX r = (s.statusFields off).getD r.val (s.getX r)) ∧
      t.maxBt = maxU s.maxBt (s.read16 (off + 32)) ∧ t.maxBrt = maxU s.maxBrt (s.read16 (off + 34)) := by
  rw [buf_eq_bytes] at hvalid
  change ∃ t, execCycUnpack off s = _ ∧ _
  rw [execCycUnpack, rangeCheck_of_le h, attempt_none, State.foldRange, hvalid]
  exact ⟨_, rfl, rfl, s.setXs_getX _, rfl, rfl⟩

end

/-- Settles O47: the checksum decides between the two outcomes, and each delivered value is a field of the layout
under its extension. -/
theorem cycleStatusIsUnpacked : Obligations.CycleStatusIsUnpacked := by
  refine fun off s h => ⟨exec_cycUnpack_of_bad h, fun hvalid => ?_⟩
  obtain ⟨t, hexec, hstate, hx, hbt, hbrt⟩ := exec_cycUnpack_of_valid h hvalid
  refine ⟨t, hexec, hstate, ?_⟩
  simp only [hx, hbt, hbrt, maxU_toNat, ← u16_eq_read16, and_true]
  exact ⟨zext_read32_toNat s _, zext_read32_toNat s _, zext_byte_toNat s _, sext_read16_toInt s _,
    sext_read16_toInt s _, zext_read16_toNat s _, zext_byte_toNat s _, zext_read32_toNat s _, zext_read32_toNat s _,
    zext_read16_toNat s _, zext_read16_toNat s _, zext_read16_toNat s _, sext_read16_toInt s _,
    zext_read16_toNat s _, zext_byte_toNat s _, zext_read32_toNat s _⟩

end Sys2Proof.Machine
end

section
/-! The error latch (spec/43_frames_cycle.md R210 to R214): LATCH.SET and TS.STEP set it, CYC.PACK with the reset
request and the hardware reset clear it, and everything else keeps it. Settles O48 and O12. -/

namespace Sys2Proof.Machine

open Safety

/-! ### Setting the latch (R214) -/

/-- LATCH.SET, with what it leaves of STATUS written out (R214). -/
theorem exec_latchSet (s : State) :
    exec .latchSet s = .next { s with status := { s.status with errLatch := true, lastErr := 0 } } := rfl

/-- Settles O48. -/
theorem latchSet : Obligations.LatchSet :=
  ⟨by decide, fun _ => wordRefused_of_formatN (op := 0x3A) (by decide), fun s => ⟨_, exec_latchSet s, rfl, rfl⟩⟩

/-! ### The latch after an operation (R212) -/

section
variable {s t : State} {off : Nat} {rd ra : Reg} {i : Instr}

theorem ECode.code_ne_zero (e : ECode) : e.code ≠ 0 := by
  cases e <;> decide

/-- The drop failure is told by its code, and sets the latch (R234). -/
theorem State.judgeTimestamp_errLatch (s : State) (d : Word) : (s.judgeTimestamp d).status.errLatch = true ↔
    (s.judgeTimestamp d).status.lastErr = 13 ∨ s.status.errLatch = true := by
  unfold State.judgeTimestamp
  split
  · exact iff_of_true rfl (.inl rfl)
  · exact (or_iff_right (by decide : (0 : Byte) ≠ 13)).symm

theorem State.countDrop_status (s : State) (dup : Bool) : (s.countDrop dup).status = s.status := by
  rw [State.countDrop_eq]

/-- Before its last line TS.STEP does not touch the latch (R231). -/
theorem exec_tsStep_errLatch (h : exec (.tsStep rd ra) s = .next t) :
    t.status.errLatch = true ↔ t.status.lastErr = 13 ∨ s.status.errLatch = true := by
  cases h
  refine (State.judgeTimestamp_errLatch _ _).trans ?_
  rw [← s.countDrop_status (isDuplicate (low32 (s.getX ra)) s.ts1 s.ts2)]
  rfl

/-- CYC.PACK clears the latch when it carries the reset request and is not refused (R201, R213). -/
theorem exec_cycPack_errLatch (h : exec (.cycPack off) s = .next t) : t.status.errLatch = true ↔
    s.status.errLatch = true ∧ ¬ (isResetCommand s (.cycPack off) = true ∧ t.status.lastErr = 0) := by
  change execCycPack off s = .next t at h
  unfold execCycPack at h
  rcases attempt_cases h with ⟨_, rfl⟩ | ⟨e, _, rfl⟩ | ⟨v, _, rfl⟩
  case inl =>
    change s.applyReset.status.errLatch = true ↔ _ ∧ ¬ (_ ∧ (0 : Byte) = 0)
    rw [← State.resetRequest_eq, State.applyReset_eq]
    simp
  case inr.inl => exact (and_iff_left fun ⟨_, hzero⟩ => e.code_ne_zero hzero).symm
  case inr.inr => exact (and_iff_left fun ⟨_, hzero⟩ => v.code_ne_zero hzero).symm

/-- No other operation's effect reaches the latch. -/
theorem Effect.errLatch {u : State} (h : Effect s i u) (hset : i ≠ .latchSet) (hstep : isTsStep i = false)
    (hpack : ∀ off, i ≠ .cycPack off) : u.status.errLatch = s.status.errLatch := by
  cases h with
  | latchSet => exact absurd rfl hset
  | tsStep => exact nomatch hstep
  | resetCommand => exact absurd rfl (hpack _)
  | _ => rfl

/-- LATCH.SET, TS.STEP and CYC.PACK are the operations that can change the latch (R212). -/
theorem exec_errLatch (h : exec i s = .next t) (hset : i ≠ .latchSet) (hstep : isTsStep i = false)
    (hpack : ∀ off, i ≠ .cycPack off) : t.status.errLatch = s.status.errLatch := by
  obtain ⟨u, hu, ht⟩ := (completes_of_exec h).flags
  rw [ht]
  exact hu.errLatch hset hstep hpack

end

/-! ### The latch after any other host event (R212) -/

/-- CMD stands at one offset of the register map (R27). -/
theorem eq_of_registerAt_cmd {off : Nat} (h : registerAt off = some .cmd) : off = 0x040 := by
  unfold registerAt at h
  rcases Option.or_eq_some_iff.mp h with hx | ⟨_, h⟩
  · obtain ⟨_, _, hx⟩ := Option.map_eq_some_iff.mp hx
    cases hx
  rcases Option.or_eq_some_iff.mp h with hnamed | ⟨_, h⟩
  · unfold namedRegister at hnamed
    split at hnamed
    case h_1 => rfl
    all_goals cases hnamed
  rcases Option.or_eq_some_iff.mp h with hbank | ⟨_, hbank⟩ <;>
  · obtain ⟨_, _, hbank⟩ := Option.map_eq_some_iff.mp hbank
    cases hbank

/-- An access that answers has reached a register of the map (R27, R72). -/
theorem registerAccess_next {off : Nat} {k : HostReg → Result} {t : State} (h : registerAccess off k = .next t) :
    ∃ r, registerAt off = some r ∧ k r = .next t := by
  rcases registerAccess_cases off k with ⟨r, hr, _, _, ha⟩ | ⟨_, ha⟩ | ⟨_, ha⟩ <;> rw [ha] at h
  · exact ⟨r, hr, h⟩
  · cases h
  · cases h

/-- An access that answers has reached a byte of BUF (R73). -/
theorem byteAccess_next {off : Nat} {k : Nat → Result} {t : State} (h : byteAccess off k = .next t) :
    ∃ a, k a = .next t := by
  rcases byteAccess_cases off k with ⟨_, _, ha⟩ | ⟨_, ha⟩ | ⟨_, ha⟩ <;> rw [ha] at h
  · exact ⟨_, h⟩
  · cases h
  · cases h

/-- A word that is no operation is refused, and changes only the fields of the refusal (R284). -/
theorem runCommand_of_not_decodes {w : Word} (h : ∀ i, decode w ≠ .ok i) (s : State) :
    ∃ e, runCommand w s = .next (s.refuse e w) := by
  rcases runCommand_cases w s with ⟨i, hi, _⟩ | ⟨_, hrun⟩ | ⟨_, hrun⟩
  · exact absurd hi (h i)
  · exact ⟨_, hrun⟩
  · exact ⟨_, hrun⟩

/-- A write to a register leaves STATUS as it is, but for the refusal of a word written to CMD (R28). -/
theorem writeReg_status {r : HostReg} {v : Word} {s t : State} (h : writeReg r v s = .next t)
    (hcmd : r = .cmd → ∀ i, decode v ≠ .ok i) : t.status = s.status ∨ ∃ c w, t = s.refuse c w := by
  rcases writeReg_cases r v s with ⟨_, _, hw⟩ | ⟨_, hw⟩ | ⟨_, hw⟩ | ⟨hr, hw⟩ | hw <;> rw [hw] at h
  case inr.inr.inr.inl =>
    obtain ⟨c, hrun⟩ := runCommand_of_not_decodes (hcmd hr) s
    rw [hrun] at h
    cases h
    exact .inr ⟨c, v, rfl⟩
  all_goals
    cases h
    exact .inl rfl

/-- A host event other than a hardware reset that performs no operation leaves STATUS as it is, but for the refusal of a
word written to CMD. -/
theorem performEvent_status {e : HostEvent} {s t : State} (h : performEvent e s = .next t) (hreset : e ≠ .hardReset)
    (hcmd : ∀ w i, decode w = .ok i → e ≠ .write32 0x040 w) :
    t.status = s.status ∨ ∃ c w, t = s.refuse c w := by
  cases e <;> rw [performEvent] at h
  case hardReset => exact absurd rfl hreset
  case otherSize => split at h <;> cases h
  case read8 | write8 =>
    obtain ⟨a, ha⟩ := byteAccess_next h
    cases ha
    exact .inl rfl
  case read32 =>
    obtain ⟨r, _, ha⟩ := registerAccess_next h
    cases ha
    exact .inl rfl
  case write32 off v =>
    obtain ⟨r, hr, ha⟩ := registerAccess_next h
    exact writeReg_status ha fun hrcmd i hi => hcmd v i hi (eq_of_registerAt_cmd (hrcmd ▸ hr) ▸ rfl)

/-- The event row of R212's table: without an operation only the hardware reset leads to Normal. -/
theorem performEvent_errLatch {e : HostEvent} {s t : State} (h : performEvent e s = .next t)
    (hcmd : ∀ w i, decode w = .ok i → e ≠ .write32 0x040 w) :
    t.status.errLatch = true ↔ s.status.errLatch = true ∧ e ≠ .hardReset := by
  by_cases hreset : e = .hardReset
  · subst hreset
    cases h
    simp [Status.reset]
  · rcases performEvent_status h hreset hcmd with hkept | ⟨c, w, rfl⟩
    · simp [hkept, hreset]
    · simp [hreset]

/-- Settles O12: each operation of the table by its own lemma, every other one by what an effect can reach, and the
host's events by `performEvent_errLatch`. -/
theorem errorLatchTransitions : Obligations.ErrorLatchTransitions := by
  refine ⟨fun i s t h => ?operation, fun s t e rest hp hcmd h => ?event⟩
  case operation =>
    cases i with
    | latchSet =>
      cases h
      exact iff_of_true rfl (.inl rfl)
    | tsStep rd ra => simp [exec_tsStep_errLatch h, isTsStep, isResetCommand]
    | cycPack off => simp [exec_cycPack_errLatch h, isTsStep]
    | _ => simp [exec_errLatch h nofun rfl nofun, isTsStep, isResetCommand]
  case event =>
    rw [step_cons hp] at h
    exact performEvent_errLatch (s := { s with pending := rest }) h hcmd

end Sys2Proof.Machine
end

section
/-! The deltas and the duration (spec/44_counters.md R221 to R223, R225): DIFF32 and DIFF8 are one update at two widths.
Settles O49 and O51. -/

namespace Sys2Proof.Machine

/-! ### Wrap-safe differences as numbers (R220, R221) -/

/-- A delta is the forward distance modulo 2^w (R220). -/
theorem sub_toNat_forward {w : Nat} (new old : BitVec w) :
    (new - old).toNat = (new.toNat + 2 ^ w - old.toNat) % 2 ^ w := by
  have hold := old.isLt
  rw [BitVec.toNat_sub]
  congr 1
  omega

/-- Bit w-1 is the upper half of the range (R221). -/
theorem isNegative_eq_decide {w : Nat} (hw : 0 < w) (d : BitVec w) : isNegative d = decide (2 ^ w / 2 ≤ d.toNat) := by
  rw [isNegative, BitVec.msb_eq_decide, Nat.pow_div hw Nat.two_pos]

/-! ### DIFF32 and DIFF8 (R222, R223) -/

/-- What the two operations do with readings of w bits. -/
def State.deliverDelta {w : Nat} (s : State) (rd : Reg) (new old : BitVec w) : State :=
  ((s.setDeltaFlags new old).setX rd (zext (new - old))).succeed

theorem exec_diff32_deliverDelta (rd ra rb : Reg) (s : State) :
    exec (.diff32 rd ra rb) s = .next (s.deliverDelta rd (s.getX ra) (s.getX rb)) := by
  rw [exec_diff32, State.deliverDelta, zext_word]

theorem exec_diff8 (rd ra rb : Reg) (s : State) :
    exec (.diff8 rd ra rb) s = .next (s.deliverDelta rd (low8 (s.getX ra)) (low8 (s.getX rb))) := rfl

/-- The whole effect, in the readings as numbers: STATUS, X[rd], and that no other register changes. -/
theorem State.deliverDelta_results {w : Nat} (s : State) (rd : Reg) {new old : BitVec w} {n o : Nat} (hpos : 0 < w)
    (hw : w ≤ 32) (hnew : new.toNat = n) (hold : old.toNat = o) :
    let t := s.deliverDelta rd new old
    let d := (n + 2 ^ w - o) % 2 ^ w
    t = { s with
      x := t.x
      status := { s.status with lastErr := 0, wrap := decide (n < o), neg := decide (2 ^ w / 2 ≤ d) } } ∧
    (t.getX rd).toNat = d ∧ ∀ r, r ≠ rd → t.getX r = s.getX r := by
  subst hnew hold
  refine ⟨?flags, ?delta, fun r => State.setX_getX_ne _ _⟩
  case flags =>
    rw [← sub_toNat_forward, ← isNegative_eq_decide hpos]
    rfl
  case delta => rw [State.deliverDelta, State.succeed_getX, State.setX_getX_self, zext_toNat _ hw, sub_toNat_forward]

/-- Settles O49: the readings of DIFF32 are whole registers, and those of DIFF8 registers modulo 256. -/
theorem deltaResults : Obligations.DeltaResults := by
  intro rd ra rb s i m hi
  simp only [List.mem_cons, Prod.mk.injEq, List.not_mem_nil, or_false] at hi
  rcases hi with ⟨rfl, rfl⟩ | ⟨rfl, rfl⟩
  · have hword (r : Reg) : (s.getX r).toNat = (s.getX r).toNat % 2 ^ 32 := (Nat.mod_eq_of_lt (s.getX r).isLt).symm
    exact ⟨_, exec_diff32_deliverDelta rd ra rb s,
      s.deliverDelta_results rd (by decide) (by decide) (hword ra) (hword rb)⟩
  · exact ⟨_, exec_diff8 rd ra rb s,
      s.deliverDelta_results rd (by decide) (by decide) (low8_toNat _) (low8_toNat _)⟩

/-! ### DUR.ACC (R225) -/

theorem exec_durAcc (ra : Reg) (s : State) : exec (.durAcc ra) s =
    .next { s with dur := s.dur + (s.getX ra).signExtend 64, status := Safety.done s.status } := by
  change execDurAcc ra s = _
  rw [execDurAcc, low32_eq, State.succeed_eq_done]

/-- Settles O51: the sign-extended delta has the value of the register. -/
theorem durationAccumulates : Obligations.DurationAccumulates := by
  intro ra s
  refine ⟨_, exec_durAcc ra s, rfl, ?_⟩
  rw [BitVec.toInt_add, BitVec.toInt_signExtend_of_le (by decide)]

end Sys2Proof.Machine
end

section
/-! The timestamp monitor (spec/44_counters.md R228 to R235): each line of TS.STEP has its lemma, the whole step is their
composition, and a run of equal timestamps is followed frame by frame. Settles O52 and O53. -/

namespace Sys2Proof.Machine

open Safety

/-! ### The tests (R232, R234, R235) -/

theorem isDuplicate_eq_decide (t ts1 ts2 : Word) : isDuplicate t ts1 ts2 = decide (t = ts1 ∨ t = ts2) := by
  rw [isDuplicate, beq_eq_decide, beq_eq_decide, Bool.decide_or]

/-- The two signed tests are one unsigned test (R235). -/
theorem isJump_eq_decide (d : Word) : isJump d = decide (10000000 < d.toNat) := by
  have hlt := d.isLt
  rw [isJump, ← Bool.decide_or, decide_eq_decide, Config.tsJumpLimit, BitVec.toInt_eq_toNat_cond]
  split <;> omega

/-! ### The lines of TS.STEP (R231) -/

/-- `max_u` as a comparison of numbers. -/
theorem maxU_eq_ite {w : Nat} (a b : BitVec w) : maxU a b = if a.toNat < b.toNat then b else a := by
  simp only [maxU, BitVec.ult, decide_eq_true_eq]

theorem State.countDrop_decide (s : State) (dup : Prop) [Decidable dup] : s.countDrop (decide dup) = { s with
    drops := if dup then s.drops + 1 else s.drops
    consec := if dup then s.consec + 1 else 0
    maxConsec := if dup ∧ s.maxConsec.toNat < (if dup then s.consec + 1 else 0).toNat
      then if dup then s.consec + 1 else 0 else s.maxConsec } := by
  by_cases h : dup <;> simp [State.countDrop, maxU_eq_ite, h]

/-- The drop failure and the success of TS.STEP as one assignment to STATUS (R234, R235). -/
theorem State.judgeTimestamp_eq (s : State) (d : Word) : s.judgeTimestamp d = { s with status := { s.status with
    ok := !dropsExceeded s.consec
    lastErr := if dropsExceeded s.consec then 13 else 0
    dropFail := s.status.dropFail || dropsExceeded s.consec
    errLatch := s.status.errLatch || dropsExceeded s.consec
    jump := s.status.jump || (!dropsExceeded s.consec && isJump d) } } := by
  unfold State.judgeTimestamp
  cases dropsExceeded s.consec
  · simp [State.pass]
  · simp [State.verdict, VCode.code]

/-- TS.INIT (R229). -/
theorem exec_tsInit (ra : Reg) (s : State) : exec (.tsInit ra) s =
    .next { s with ts1 := s.getX ra, ts2 := s.getX ra, consec := 0, status := done s.status } := by
  change execTsInit ra s = _
  rw [execTsInit, low32_eq, State.succeed_eq_done]

/-- TS.STEP before its verdict (R231). -/
def State.takeTimestamp (s : State) (rd : Reg) (now : Word) : State :=
  let u := (((s.countDrop (decide (now = s.ts1 ∨ now = s.ts2))).shiftTimestamps now).setX rd (now - s.ts1)).setDeltaFlags
    now s.ts1
  { u with status := { u.status with dup := decide (now = s.ts1 ∨ now = s.ts2) } }

theorem exec_tsStep (rd ra : Reg) (s : State) : exec (.tsStep rd ra) s =
    .next ((s.takeTimestamp rd (s.getX ra)).judgeTimestamp (s.getX ra - s.ts1)) := by
  change execTsStep rd ra s = _
  simp only [execTsStep, State.takeTimestamp, low32_eq, zext_word, isDuplicate_eq_decide]

section
variable (s : State) (rd : Reg) (now : Word)

theorem State.takeTimestamp_eq : s.takeTimestamp rd now = { s with
    x := s.x.set rd (now - s.ts1)
    ts1 := now
    ts2 := s.ts1
    drops := (s.countDrop (decide (now = s.ts1 ∨ now = s.ts2))).drops
    consec := (s.countDrop (decide (now = s.ts1 ∨ now = s.ts2))).consec
    maxConsec := (s.countDrop (decide (now = s.ts1 ∨ now = s.ts2))).maxConsec
    status := { s.status with
      dup := decide (now = s.ts1 ∨ now = s.ts2)
      wrap := decide (now.toNat < s.ts1.toNat)
      neg := decide (2 ^ 31 ≤ (now.toNat + 2 ^ 32 - s.ts1.toNat) % 2 ^ 32) } } := by
  rw [← sub_toNat_forward, State.takeTimestamp, State.countDrop_eq, State.setDeltaFlags,
    isNegative_eq_decide (by decide)]
  rfl

theorem State.takeTimestamp_getX (r : Reg) :
    (s.takeTimestamp rd now).getX r = if r = rd then now - s.ts1 else s.getX r := by
  rw [State.takeTimestamp_eq]
  exact s.setX_getX rd r _

theorem State.judgeTimestamp_getX (d : Word) (r : Reg) : (s.judgeTimestamp d).getX r = s.getX r := by
  rw [State.judgeTimestamp_eq]
  rfl

end

/-- Settles O52: the lines of TS.STEP, put together. -/
theorem timestampMonitor : Obligations.TimestampMonitor := by
  refine ⟨exec_tsInit, fun rd ra s => ⟨_, exec_tsStep rd ra s, ?flags, ?delta, fun r hr => ?others⟩⟩
  case flags =>
    rw [State.judgeTimestamp_eq, State.takeTimestamp_eq, State.countDrop_decide, isJump_eq_decide, sub_toNat_forward]
    rfl
  case delta => rw [State.judgeTimestamp_getX, State.takeTimestamp_getX, if_pos rfl, sub_toNat_forward]
  case others => rw [State.judgeTimestamp_getX, State.takeTimestamp_getX, if_neg hr]

/-! ### Runs of one timestamp (R234) -/

/-- TS.STEP on the timestamp of the frame before: the streak goes on, and is judged by its new length. -/
theorem exec_tsStep_duplicate {rd ra : Reg} {s : State} (h : s.getX ra = s.ts1) :
    ∃ t, exec (.tsStep rd ra) s = .next t ∧ t.ts1 = s.ts1 ∧ t.ts2 = s.ts1 ∧ t.consec = s.consec + 1 ∧
      t.status.dup = true ∧ t.status.ok = !decide (10 < t.consec.toNat) ∧
      t.status.lastErr = (if 10 < t.consec.toNat then 13 else 0) ∧
      t.status.dropFail = (s.status.dropFail || decide (10 < t.consec.toNat)) ∧
      t.status.errLatch = (s.status.errLatch || decide (10 < t.consec.toNat)) := by
  obtain ⟨t, hexec, ht, _, _⟩ := timestampMonitor.2 rd ra s
  refine ⟨t, hexec, ?_⟩
  rw [ht]
  simp [h]

/-- TS.STEP on a timestamp not among the last two succeeds, ends the streak and leaves the sticky failure flags. -/
theorem exec_tsStep_fresh {rd ra : Reg} {s : State} (h1 : s.getX ra ≠ s.ts1) (h2 : s.getX ra ≠ s.ts2) :
    ∃ u, exec (.tsStep rd ra) s = .next u ∧ u.status.ok = true ∧ u.status.lastErr = 0 ∧ u.consec = 0 ∧
      u.status.dropFail = s.status.dropFail ∧ u.status.errLatch = s.status.errLatch := by
  obtain ⟨u, hexec, hu, _, _⟩ := timestampMonitor.2 rd ra s
  refine ⟨u, hexec, ?_⟩
  rw [hu]
  simp [h1, h2]

/-- What `n` frames with the timestamp `ts` have made of `s` when they end in `t`. -/
structure Streak (s : State) (ts : Word) (n : Nat) (t : State) : Prop where
  ts1 : t.ts1 = ts
  consec : t.consec.toNat = n
  dropFail : t.status.dropFail = (s.status.dropFail || decide (10 < n))
  errLatch : t.status.errLatch = (s.status.errLatch || decide (10 < n))
  /-- What only a step writes. -/
  stepped : 0 < n → t.ts2 = ts ∧ t.status.dup = true ∧ t.status.ok = !decide (10 < n) ∧
    t.status.lastErr = if 10 < n then 13 else 0

theorem Streak.start {s : State} (hconsec : s.consec = 0) : Streak s s.ts1 0 s where
  ts1 := rfl
  consec := by rw [hconsec]; rfl
  dropFail := by simp
  errLatch := by simp
  stepped h := absurd h (Nat.lt_irrefl 0)

/-- A sticky flag that a streak of `n` has set is one that a streak of `n + 1` sets (R234). -/
theorem or_past_limit_succ (flag : Bool) (n : Nat) :
    ((flag || decide (10 < n)) || decide (10 < n + 1)) = (flag || decide (10 < n + 1)) := by
  have hmono : (decide (10 < n) || decide (10 < n + 1)) = decide (10 < n + 1) := by
    rw [← Bool.decide_or, decide_eq_decide]
    omega
  rw [Bool.or_assoc, hmono]

/-- One more frame with the timestamp; CONSEC does not wrap (R233). -/
theorem Streak.step {s t : State} {ts : Word} {n : Nat} (rd ra : Reg) (h : Streak s ts n t) (hn : n + 1 < 2 ^ 32) :
    ∃ u, exec (.tsStep rd ra) (t.setX ra (zext ts)) = .next u ∧ Streak s ts (n + 1) u := by
  have hseen : (t.setX ra (zext ts)).getX ra = (t.setX ra (zext ts)).ts1 := by
    rw [State.setX_getX_self, zext_word]
    exact h.ts1.symm
  obtain ⟨u, hexec, hts1, hts2, hconsec, hdup, hok, herr, hdrop, hlatch⟩ := exec_tsStep_duplicate (rd := rd) hseen
  have hlen : u.consec.toNat = n + 1 := by
    rw [hconsec, State.setX_consec, BitVec.toNat_add, h.consec]
    exact Nat.mod_eq_of_lt hn
  rw [hlen] at hok herr hdrop hlatch
  refine ⟨u, hexec, hts1.trans h.ts1, hlen, ?dropFail, ?errLatch, fun _ => ⟨hts2.trans h.ts1, hdup, hok, herr⟩⟩
  case dropFail => rw [hdrop, State.setX_status, h.dropFail, or_past_limit_succ]
  case errLatch => rw [hlatch, State.setX_status, h.errLatch, or_past_limit_succ]

/-- `n` frames in a row, by induction on `n`. -/
theorem feed_streak (rd ra : Reg) {s : State} (hconsec : s.consec = 0) (n : Nat) (hn : n < 2 ^ 32) :
    ∃ t, feed rd ra s.ts1 n s = .next t ∧ Streak s s.ts1 n t := by
  induction n with
  | zero => exact ⟨s, rfl, .start hconsec⟩
  | succ n ih =>
    obtain ⟨t, hfeed, ht⟩ := ih (Nat.lt_of_succ_lt hn)
    obtain ⟨u, hexec, hu⟩ := ht.step rd ra hn
    exact ⟨u, by rw [feed, hfeed]; exact hexec, hu⟩

/-- Settles O53: the streak's length is the number of frames, and after one frame both timestamps are the repeated one,
so that any other is fresh. -/
theorem eleventhDuplicateFails : Obligations.EleventhDuplicateFails := by
  rintro rd ra _ s n rfl hconsec hpos hn
  obtain ⟨t, hfeed, ht⟩ := feed_streak rd ra hconsec n hn
  obtain ⟨hts2, hdup, hok, herr⟩ := ht.stepped hpos
  refine ⟨t, hfeed, ht.consec, hdup, fun hle => ?within, fun hge => ?beyond⟩
  case within =>
    have hnot : ¬ 10 < n := by omega
    simp [hok, herr, ht.errLatch, hnot]
  case beyond =>
    have hmore : 10 < n := hge
    have hdrop : t.status.dropFail = true := by simp [ht.dropFail, hmore]
    have hlatch : t.status.errLatch = true := by simp [ht.errLatch, hmore]
    refine ⟨by simp [hok, hmore], by simp [herr, hmore], hdrop, hlatch, fun other hother => ?_⟩
    obtain ⟨u, hexec, uok, uerr, uconsec, udrop, ulatch⟩ :=
      exec_tsStep_fresh (rd := rd) (ra := ra) (s := t.setX ra other)
        (by rwa [State.setX_getX_self, State.setX_ts1, ht.ts1])
        (by rwa [State.setX_getX_self, State.setX_ts2, hts2])
    exact ⟨u, hexec, uok, uerr, uconsec, udrop.trans hdrop, ulatch.trans hlatch⟩

end Sys2Proof.Machine
end

section
/-! The 8-bit counters' channels and the reset of the diagnostics (spec/44_counters.md R237, R238, R240, R242). Settles
O54 and O55. -/

namespace Sys2Proof.Machine

open Safety

/-! ### Channels -/

theorem channel?_val (ch : Chan) : channel? ch.val = some ch := channel?_eq_some.mpr rfl

section
variable {α : Type} {v : Vector α Config.nch}

theorem getElem_setChan_self (ch : Chan) (a : α) : (v.set ch a)[ch] = a := by
  rw [Fin.getElem_fin, Vector.getElem_set_self]

theorem getElem_setChan_ne {c ch : Chan} (h : c ≠ ch) (a : α) : (v.set ch a)[c] = v[c] := by
  have hne : ch.val ≠ c.val := fun he => h (Fin.ext he.symm)
  rw [Fin.getElem_fin, Vector.getElem_set_ne _ _ hne, Fin.getElem_fin]

end

/-- ACC8 below channel 16 (R238). -/
theorem exec_acc8 (ra : Reg) (ch : Chan) (s : State) : exec (.acc8 ra ch.val) s = .next { s with
    status := { s.status with lastErr := 0, wrap := decide ((low8 (s.getX ra)).toNat < s.snap[ch].toNat) }
    total := s.total.set ch (s.total[ch] + (low8 (s.getX ra) - s.snap[ch]).setWidth 32)
    snap := s.snap.set ch (low8 (s.getX ra)) } := by
  change execAcc8 ra ch.val s = _
  rw [execAcc8, channel?_val]
  rfl

/-- SNAP8 below channel 16 (R240). -/
theorem exec_snap8 (ra : Reg) (ch : Chan) (s : State) : exec (.snap8 ra ch.val) s =
    .next { s with snap := s.snap.set ch (low8 (s.getX ra)), status := done s.status } := by
  change execSnap8 ra ch.val s = _
  rw [execSnap8, channel?_val]
  rfl

/-- From channel 16 up both are refused (R238, R240). -/
theorem exec_acc8_refused {ch : Nat} (h : 16 ≤ ch) (ra : Reg) (s : State) :
    exec (.acc8 ra ch) s = .next (refused s 4 (encode (.acc8 ra ch))) := by
  change execAcc8 ra ch s = _
  rw [execAcc8, channel?_eq_none.mpr h]
  rfl

theorem exec_snap8_refused {ch : Nat} (h : 16 ≤ ch) (ra : Reg) (s : State) :
    exec (.snap8 ra ch) s = .next (refused s 4 (encode (.snap8 ra ch))) := by
  change execSnap8 ra ch s = _
  rw [execSnap8, channel?_eq_none.mpr h]
  rfl

/-- TOTAL grows by the forward distance (R238). -/
theorem add_setWidth_sub_toNat (total : TotalWord) (new old : Byte) :
    (total + (new - old).setWidth 32).toNat = (total.toNat + (new.toNat + 256 - old.toNat) % 256) % 2 ^ 32 := by
  rw [BitVec.toNat_add, BitVec.toNat_setWidth_of_le (by decide), sub_toNat_forward]
  rfl

/-- Settles O54: what is stored in a channel reads back there, and no other channel is reached. -/
theorem counterChannels : Obligations.CounterChannels := by
  refine ⟨fun ra ch s => ⟨⟨_, exec_acc8 ra ch s, ?acc8⟩, ⟨_, exec_snap8 ra ch s, rfl, ?snap8⟩⟩,
    fun ra ch s h => ⟨exec_acc8_refused h ra s, exec_snap8_refused h ra s⟩⟩
  case acc8 =>
    dsimp only
    rw [getElem_setChan_self, getElem_setChan_self, add_setWidth_sub_toNat, low8_toNat]
    exact ⟨rfl, rfl, rfl, fun c hc => ⟨getElem_setChan_ne hc _, getElem_setChan_ne hc _⟩⟩
  case snap8 =>
    dsimp only
    rw [getElem_setChan_self, low8_toNat]
    exact ⟨rfl, fun c hc => getElem_setChan_ne hc _⟩

/-! ### DIAG.RESET (R242) -/

theorem exec_diagReset (s : State) : exec .diagReset s = .next { s with
    total := Vector.replicate _ 0, drops := 0, maxConsec := 0, maxBt := 0, maxBrt := 0, status := done s.status } := rfl

/-- Settles O55: the opcode is of format N, and every element of the cleared bank is 0. -/
theorem diagnosticsReset : Obligations.DiagnosticsReset :=
  ⟨by decide, fun _ => wordRefused_of_formatN (op := 0x58) (by decide),
    fun s => ⟨_, exec_diagReset s, rfl, fun ch => Vector.getElem_replicate ch.isLt⟩⟩

end Sys2Proof.Machine
end

section
/-! Field access and the fills (spec/45_field_access.md R250 to R260): a store or a fill writes one run of bytes, a load
writes one register, and a load after the store of its own width gets the stored bits back. Settles O56 to O59. -/

namespace Sys2Proof.Machine

open Safety

/-- An operation that only checks a range acts when the range lies inside BUF (R74, R250). -/
theorem exec_of_range {i : Instr} {s u : State} {off n : Nat}
    (hexec : exec i s = attempt i s (rangeCheck off n) fun _ => u) (h : off + n ≤ 1024) : exec i s = .next u := by
  rw [hexec, rangeCheck_of_le h, attempt_none]

/-! ### The operations in range (R251 to R260) -/

section
variable {off : Nat} (r : Reg) (s : State)

theorem exec_put8 (h : off + 1 ≤ 1024) :
    exec (.put8 r off) s = .next (s.setByte off (low8 (s.getX r))).succeed :=
  exec_of_range rfl h

theorem exec_put16 (h : off + 2 ≤ 1024) :
    exec (.put16 r off) s = .next (s.write16 off (low16 (s.getX r))).succeed :=
  exec_of_range rfl h

theorem exec_put32 (h : off + 4 ≤ 1024) :
    exec (.put32 r off) s = .next (s.write32 off (low32 (s.getX r))).succeed :=
  exec_of_range rfl h

theorem exec_get8u (h : off + 1 ≤ 1024) : exec (.get8u r off) s = .next (s.setX r (zext (s.byte off))).succeed :=
  exec_of_range rfl h

theorem exec_get8s (h : off + 1 ≤ 1024) : exec (.get8s r off) s = .next (s.setX r (sext (s.byte off))).succeed :=
  exec_of_range rfl h

theorem exec_get16u (h : off + 2 ≤ 1024) : exec (.get16u r off) s = .next (s.setX r (zext (s.read16 off))).succeed :=
  exec_of_range rfl h

theorem exec_get16s (h : off + 2 ≤ 1024) : exec (.get16s r off) s = .next (s.setX r (sext (s.read16 off))).succeed :=
  exec_of_range rfl h

theorem exec_get32 (h : off + 4 ≤ 1024) : exec (.get32 r off) s = .next (s.setX r (zext (s.read32 off))).succeed :=
  exec_of_range rfl h

theorem exec_fillZ {len : Nat} (h : off + len ≤ 1024) :
    exec (.fillZ off len) s = .next (s.store off (List.replicate len 0x00)).succeed :=
  exec_of_range rfl h

theorem exec_fillF {len : Nat} (h : off + len ≤ 1024) :
    exec (.fillF off len) s = .next (s.store off (List.replicate len 0xFF)).succeed :=
  exec_of_range rfl h

end

/-! ### Fills (R259, R260) -/

theorem State.byte_store_replicate (s : State) (off len : Nat) (b : Byte) (a : Nat) :
    (s.store off (List.replicate len b)).byte a = if off ≤ a ∧ a < off + len then b else s.byte a := by
  rw [State.byte_store, List.length_replicate]
  split
  · exact List.getD_replicate _ (by omega)
  · rfl

/-- Settles O59: a fill stores the same byte all over its range. -/
theorem fillResults : Obligations.FillResults := by
  intro off len i b s hi h
  simp only [List.mem_cons, Prod.mk.injEq, List.not_mem_nil, or_false] at hi
  rcases hi with ⟨rfl, rfl⟩ | ⟨rfl, rfl⟩
  · exact ⟨_, exec_fillZ s h, rfl, s.byte_store_replicate off len _⟩
  · exact ⟨_, exec_fillF s h, rfl, s.byte_store_replicate off len _⟩

/-! ### Stores of a field (R251 to R253) -/

/-- The low `n` bytes of a register in the order of a field of BUF, least significant first (R75). -/
def fieldBytes (v : XWord) (n : Nat) : List Byte := (List.range n).map fun k => v.extractLsb' (8 * k) 8

theorem low16_extractLsb' (v : XWord) {lo : Nat} (h : lo + 8 ≤ 16) :
    (low16 v).extractLsb' lo 8 = v.extractLsb' lo 8 := by
  refine BitVec.eq_of_getLsbD_eq fun i hi => ?_
  have hin : lo + i < 16 := by omega
  simp [low16, hin]

theorem le16_low16 (v : XWord) : le16 (low16 v) = fieldBytes v 2 := by
  rw [le16, low16_extractLsb' v (by decide), low16_extractLsb' v (by decide)]
  rfl

theorem le32_low32 (v : XWord) : le32 (low32 v) = fieldBytes v 4 := by
  rw [low32_eq]
  rfl

theorem State.byte_store_fieldBytes (s : State) (off : Nat) (v : XWord) (n a : Nat) :
    (s.store off (fieldBytes v n)).byte a =
      if off ≤ a ∧ a < off + n then v.extractLsb' (8 * (a - off)) 8 else s.byte a := by
  rw [State.byte_store, fieldBytes, List.length_map, List.length_range]
  split
  · rw [List.getD_eq_getElem _ _ (by rw [List.length_map, List.length_range]; omega), List.getElem_map,
      List.getElem_range]
  · rfl

/-- The three stores are one operation at three widths (R250). -/
theorem exec_put {r : Reg} {off n : Nat} {i : Instr}
    (hi : (i, n) ∈ [(Instr.put8 r off, 1), (Instr.put16 r off, 2), (Instr.put32 r off, 4)]) (s : State)
    (h : off + n ≤ 1024) : exec i s = .next (s.store off (fieldBytes (s.getX r) n)).succeed := by
  simp only [List.mem_cons, Prod.mk.injEq, List.not_mem_nil, or_false] at hi
  rcases hi with ⟨rfl, rfl⟩ | ⟨rfl, rfl⟩ | ⟨rfl, rfl⟩
  · exact exec_put8 r s h
  · rw [exec_put16 r s h, State.write16, le16_low16]
  · rw [exec_put32 r s h, State.write32, le32_low32]

/-- Settles O56: a byte of the run stored is that byte of the register. -/
theorem fieldStores : Obligations.FieldStores := fun r off n _ s hi h =>
  ⟨_, exec_put hi s h, rfl, s.byte_store_fieldBytes off (s.getX r) n⟩

/-! ### Loads of a field (R254 to R258) -/

theorem sext_byte_toInt (s : State) (a : Nat) : (sext (s.byte a)).toInt = signed 8 (s.byte a).toNat :=
  (sext_toInt _ (by decide)).trans (BitVec.toInt_eq_toNat_bmod _)

/-- The five loads write one register, with the value of the field extended as their name says (R250). -/
theorem exec_get {r : Reg} {off n v : Nat} {sign : Bool} {i : Instr} {s : State}
    (hi : (i, n, sign, v) ∈ [(Instr.get8u r off, 1, false, (s.byte off).toNat),
      (Instr.get8s r off, 1, true, (s.byte off).toNat), (Instr.get16u r off, 2, false, u16 s off),
      (Instr.get16s r off, 2, true, u16 s off), (Instr.get32 r off, 4, false, u32 s off)])
    (h : off + n ≤ 1024) :
    ∃ val, exec i s = .next (s.setX r val).succeed ∧
      if sign then val.toInt = signed (8 * n) v else val.toNat = v := by
  simp only [List.mem_cons, Prod.mk.injEq, List.not_mem_nil, or_false] at hi
  rcases hi with ⟨rfl, rfl, rfl, rfl⟩ | ⟨rfl, rfl, rfl, rfl⟩ | ⟨rfl, rfl, rfl, rfl⟩ | ⟨rfl, rfl, rfl, rfl⟩ |
    ⟨rfl, rfl, rfl, rfl⟩
  · exact ⟨_, exec_get8u r s h, zext_byte_toNat s off⟩
  · exact ⟨_, exec_get8s r s h, sext_byte_toInt s off⟩
  · exact ⟨_, exec_get16u r s h, zext_read16_toNat s off⟩
  · exact ⟨_, exec_get16s r s h, sext_read16_toInt s off⟩
  · exact ⟨_, exec_get32 r s h, zext_read32_toNat s off⟩

/-- Settles O57: the loaded register reads as the field, and a write of one register keeps the others. -/
theorem fieldLoads : Obligations.FieldLoads := by
  intro r off n v sign i s hi h
  obtain ⟨val, hexec, hval⟩ := exec_get hi h
  refine ⟨_, hexec, rfl, ?loaded, fun q hq => State.setX_getX_ne s val hq⟩
  case loaded => rwa [State.succeed_getX, State.setX_getX_self]

/-! ### A load after a store (R258) -/

/-- The low bits of a register, read as signed (R7). -/
theorem toInt_of_toNat_mod {w n : Nat} (h : w ≤ n) {u : BitVec w} {v : BitVec n} (hu : u.toNat = v.toNat % 2 ^ w) :
    u.toInt = Int.bmod v.toInt (2 ^ w) := by
  rw [BitVec.toInt_eq_toNat_bmod, hu, Int.natCast_emod, Int.emod_bmod, BitVec.toInt_eq_toNat_bmod,
    Int.bmod_bmod_of_dvd (Nat.pow_dvd_pow 2 h)]

theorem low8_toInt (v : XWord) : (low8 v).toInt = Int.bmod v.toInt (2 ^ 8) :=
  toInt_of_toNat_mod (by decide) (low8_toNat v)

/-- Settles O58: the field that the store left reads as the bits it took from the register. -/
theorem storedFieldLoadsBack : Obligations.StoredFieldLoadsBack := by
  intro r q off s
  refine ⟨fun h => ⟨_, _, exec_put32 r s h, exec_get32 q _ h, ?word⟩,
    fun h => ⟨_, _, _, exec_put16 r s h, exec_get16u q _ h, exec_get16s q _ h, ?half⟩,
    fun h => ⟨_, _, _, exec_put8 r s h, exec_get8u q _ h, exec_get8s q _ h, ?byte⟩⟩
  all_goals simp only [State.succeed_getX, State.setX_getX_self]
  case word => rw [State.succeed_read32, State.read32_write32, low32_eq, zext_word]
  case half =>
    rw [State.succeed_read16, State.read16_write16, zext_toNat _ (by decide), sext_toInt _ (by decide)]
    exact ⟨low16_toNat _, low16_toInt _⟩
  case byte =>
    rw [State.succeed_byte, State.byte_setByte, if_pos rfl, zext_toNat _ (by decide), sext_toInt _ (by decide)]
    exact ⟨low8_toNat _, low8_toInt _⟩

end Sys2Proof.Machine
end

section
/-! The system operations (spec/46_system.md R270, R271): NOP and CLRERR, and the words of their two opcodes that R96
refuses. Settles O22. -/

namespace Sys2Proof.Machine

/-- NOP, with what it leaves of STATUS written out (R270). -/
theorem exec_nop (s : State) : exec .nop s = .next { s with status := { s.status with lastErr := 0 } } := rfl

/-- CLRERR, with what it leaves of STATUS written out (R271). -/
theorem exec_clrerr (s : State) :
    exec .clrerr s = .next { s with status := { s.status with lastErr := 0, errSeen := false } } := rfl

/-- Settles O22: both opcodes are of format N, and a word below 0x02000000 has one of them. -/
theorem systemOperations : Obligations.SystemOperations := by
  refine ⟨by decide, by decide, fun w hpos hlt hne => ?reserved, fun s => ⟨exec_nop s, exec_clrerr s⟩⟩
  have hclrerr : w.toNat ≠ 0x01000000 := fun h => hne (BitVec.eq_of_toNat_eq h)
  rcases Nat.lt_or_gt_of_ne hclrerr with hnop | hgt
  · exact wordRefused_of_formatN (op := 0x00) (by decide) hpos hnop
  · exact wordRefused_of_formatN (op := 0x01) (by decide) hgt hlt

end Sys2Proof.Machine
end

section
/-! How an operation ends and what the host's events leave (spec/60_exceptions.md R280, R281, R284 to R286): a refusal
has no effect but its record, a verdict and a success write neither ERRSEEN nor ERRCMD, and no other event of the host
but the hardware reset touches either. Settles O10 and O9. -/

namespace Sys2Proof.Machine

open Safety

/-! ### Outcome codes (R281) -/

theorem ECode.isListed_code (e : ECode) : isListed e.code = true := by
  cases e <;> decide

theorem ECode.isVerdict_code (e : ECode) : isVerdict e.code = false := by
  cases e <;> decide

theorem VCode.isListed_code (v : VCode) : isListed v.code = true := by
  cases v <;> decide

/-! ### The outcome of an operation (R280, R284 to R286) -/

section
variable {s t u : State} {i : Instr}

/-- ERRCMD belongs to the ending. -/
theorem Effect.errCmd (h : Effect s i u) : u.errCmd = s.errCmd := by
  cases h <;> rfl

/-- An ending leaves in LASTERR the code of its refusal or verdict, or 0 (R280, R281). -/
theorem Completes.isListed_lastErr (h : Completes s i t) : isListed t.status.lastErr = true := by
  cases h with
  | refuse e => exact e.isListed_code
  | verdict v => exact v.isListed_code
  | succeed | clrerr | pass => rfl

/-- A refusal has no effect, so its record is all it changes (R284). -/
theorem Completes.eq_refused (h : Completes s i t) (hr : isRefusal t.status.lastErr = true) :
    t = refused s t.status.lastErr (encode i) := by
  cases h with
  | refuse => rfl
  | verdict v => simp [v.isRefusal_code] at hr
  | succeed | clrerr | pass => exact nomatch hr

/-- Only a refusal records its command word (R30, R284). -/
theorem Completes.errCmd_of_not_refusal (h : Completes s i t) (hr : isRefusal t.status.lastErr = false) :
    t.errCmd = s.errCmd := by
  cases h with
  | refuse e => simp [e.isRefusal_code] at hr
  | clrerr => rfl
  | succeed _ _ hu | pass _ hu | verdict _ _ hu => exact hu.errCmd

/-- A verdict comes from an operation that writes OK, and clears it (R285). -/
theorem Completes.of_isVerdict (h : Completes s i t) (hv : isVerdict t.status.lastErr = true) :
    writesOk i = true ∧ t.status.ok = false ∧ t.status.errSeen = s.status.errSeen ∧ t.errCmd = s.errCmd := by
  cases h with
  | refuse e => simp [e.isVerdict_code] at hv
  | succeed | clrerr | pass => exact nomatch hv
  | verdict v hok hu =>
    obtain ⟨_, hseen⟩ := hu.ok_errSeen
    exact ⟨hok, rfl, hseen, hu.errCmd⟩

/-- Success leaves ERRCMD, and sets OK where the operation writes it (R286). -/
theorem Completes.of_lastErr_zero (h : Completes s i t) (hz : t.status.lastErr = 0) :
    t.errCmd = s.errCmd ∧ (writesOk i = true → t.status.ok = true) := by
  have hr : isRefusal t.status.lastErr = false := by rw [hz]; decide
  refine ⟨h.errCmd_of_not_refusal hr, fun hok => ?_⟩
  rw [h.ok, hr, hz, hok]
  rfl

end

/-- Settles O10: the operation completes, and its ending tells the outcome. -/
theorem everyOperationEndsInOneOutcome : Obligations.EveryOperationEndsInOneOutcome := by
  intro i s
  obtain ⟨t, ht, hc⟩ := exec_completes i s
  exact ⟨t, ht, hc.isListed_lastErr, hc.of_isVerdict, hc.of_lastErr_zero⟩

/-! ### The outcome of a command word (R29, R95) -/

/-- Two words never decode to one operation, so a refused operation records the word written (R95). -/
theorem encode_of_decode {w : Word} {i : Instr} (h : decode w = .ok i) : encode i = w := by
  cases hm : reservedMask (field w 31 24) with
  | none =>
    rw [decode_illegal hm] at h
    cases h
  | some m =>
    obtain ⟨hreserved, hexact⟩ := decode_exact hm
    by_cases hz : w &&& m = 0
    · obtain ⟨j, _, hj, henc⟩ := hexact hz
      cases h.symm.trans hj
      exact henc
    · cases h.symm.trans (hreserved hz)

/-- All a command word can lead to: its refusal in decoding, or what the operation it encodes does. -/
theorem runCommand_next {w : Word} {s t : State} (h : runCommand w s = .next t) :
    (∃ e, t = s.refuse e w) ∨ ∃ i, encode i = w ∧ exec i s = .next t := by
  rcases runCommand_cases w s with ⟨i, hi, hrun⟩ | ⟨_, hrun⟩ | ⟨_, hrun⟩ <;> rw [hrun] at h
  · exact .inr ⟨i, encode_of_decode hi, h⟩
  all_goals
    cases h
    exact .inl ⟨_, rfl⟩

/-- A word that ends in a refusal changes LASTERR, ERRSEEN and ERRCMD alone (R284). -/
theorem runCommand_eq_refused {w : Word} {s t : State} (h : runCommand w s = .next t)
    (hr : isRefusal t.status.lastErr = true) : t = refused s t.status.lastErr w := by
  rcases runCommand_next h with ⟨e, rfl⟩ | ⟨i, rfl, hexec⟩
  · rfl
  · exact (completes_of_exec hexec).eq_refused hr

/-- A word that ends otherwise keeps ERRCMD, and ERRSEEN too if it is not CLRERR (R271, R284). -/
theorem runCommand_keeps_record {w : Word} {s t : State} (h : runCommand w s = .next t)
    (hr : isRefusal t.status.lastErr = false) :
    t.errCmd = s.errCmd ∧ (w ≠ encode .clrerr → t.status.errSeen = s.status.errSeen) := by
  rcases runCommand_next h with ⟨e, rfl⟩ | ⟨i, rfl, hexec⟩
  · simp [e.isRefusal_code] at hr
  · have hc := completes_of_exec hexec
    refine ⟨hc.errCmd_of_not_refusal hr, fun hne => ?_⟩
    have hclr : i ≠ .clrerr := fun hi => hne (congrArg encode hi)
    rw [hc.errSeen, hr, if_neg Bool.false_ne_true, if_neg hclr]

/-! ### The host's other events (R28, R72, R73) -/

/-- What a host access that performs no operation leaves: STATUS and ERRCMD as they are, BUF in canonical form. -/
structure PlainAccess (s t : State) : Prop where
  status_eq : t.status = s.status
  errCmd_eq : t.errCmd = s.errCmd
  wf_buf : Memory.wf s.buf = true → Memory.wf t.buf = true

/-- A write to a register other than CMD stores it or is ignored (R28). -/
theorem writeReg_plain {r : HostReg} {v : Word} {s t : State} (h : writeReg r v s = .next t) (hr : r ≠ .cmd) :
    PlainAccess s t := by
  rcases writeReg_cases r v s with ⟨_, _, hw⟩ | ⟨_, hw⟩ | ⟨_, hw⟩ | ⟨hcmd, _⟩ | hw
  case inr.inr.inr.inl => exact absurd hcmd hr
  all_goals
    rw [hw] at h
    cases h
    exact ⟨rfl, rfl, id⟩

/-- All a host event can lead to: reset values, what a command word leads to, or a plain access. -/
theorem performEvent_next {e : HostEvent} {s t : State} (h : performEvent e s = .next t) :
    (e = .hardReset ∧ t = s.hardReset) ∨ (∃ w, e = .write32 0x040 w ∧ runCommand w s = .next t) ∨
      PlainAccess s t := by
  cases e <;> rw [performEvent] at h
  case hardReset =>
    cases h
    exact .inl ⟨rfl, rfl⟩
  case otherSize => split at h <;> cases h
  case read32 =>
    obtain ⟨r, _, ha⟩ := registerAccess_next h
    cases ha
    exact .inr (.inr ⟨rfl, rfl, id⟩)
  case write32 off v =>
    obtain ⟨r, hr, ha⟩ := registerAccess_next h
    by_cases hcmd : r = .cmd
    · subst hcmd
      cases eq_of_registerAt_cmd hr
      exact .inr (.inl ⟨v, rfl, ha⟩)
    · exact .inr (.inr (writeReg_plain ha hcmd))
  case read8 =>
    obtain ⟨a, ha⟩ := byteAccess_next h
    cases ha
    exact .inr (.inr ⟨rfl, rfl, id⟩)
  case write8 off b =>
    rcases byteAccess_cases off fun a => .next (s.setByte a b) with ⟨hlo, hhi, ha⟩ | ⟨_, ha⟩ | ⟨_, ha⟩ <;>
      rw [ha] at h <;> cases h
    exact .inr (.inr ⟨rfl, rfl, fun hwf => Memory.wf_insert _ _ _ hwf (by change off - 0x1000 < 1024; omega)⟩)

/-- Settles O9: the first two clauses are about the word written to CMD, the third about the plain accesses. -/
theorem refusalHasNoOtherEffect : Obligations.RefusalHasNoOtherEffect := by
  refine ⟨fun s t w rest hp h => ?refused, fun s t w rest hp h => ?kept,
    fun s t e rest hp hreset hcmd h => ?others⟩ <;> rw [step_cons hp] at h
  case refused => exact runCommand_eq_refused h
  case kept => exact runCommand_keeps_record (s := { s with pending := rest }) h
  case others =>
    rcases performEvent_next h with ⟨he, _⟩ | ⟨w, he, _⟩ | hplain
    · exact absurd he hreset
    · exact absurd he (hcmd w)
    · exact ⟨hplain.status_eq, hplain.errCmd_eq⟩

end Sys2Proof.Machine
end

section
/-! The invariant (spec/20_memory.md R70, spec/43_frames_cycle.md R213, spec/44_counters.md R234, spec/60_exceptions.md
R281, R284, R285). Every ending writes an outcome that STATUS agrees with, so only two clauses of the invariant,
`Consistent`, have to be carried through the effects: BUF's canonical form, which each store keeps because its range was
checked, and that a drop failure is latched. Settles O6. -/

namespace Sys2Proof.Machine

open Safety

/-- The clauses of the invariant that do not speak of LASTERR: BUF in canonical form, and DROPFAIL only with ERRLATCH
(R70, R213, R234). -/
structure Consistent (s : State) : Prop where
  wf_buf : Memory.wf s.buf = true
  latched : s.status.dropFail = true → s.status.errLatch = true

theorem Consistent.of_inv {s : State} (h : Safety.Inv s) : Consistent s := by
  obtain ⟨hwf, _, _, _, _, hlatched⟩ := h
  exact ⟨hwf, hlatched⟩

/-! ### The endings meet the invariant (R284 to R286) -/

section
variable {s : State}

theorem ECode.code_ne_drops (e : ECode) : e.code ≠ 13 := by
  cases e <;> decide

theorem VCode.code_ne_drops {v : VCode} (h : v ≠ .drops) : v.code ≠ 13 := by
  cases v with
  | drops => exact absurd rfl h
  | _ => decide

theorem Consistent.refuse (h : Consistent s) (e : ECode) (w : Word) : Safety.Inv (s.refuse e w) :=
  ⟨h.wf_buf, e.isListed_code, fun _ => rfl, fun hv => absurd (e.isVerdict_code.symm.trans hv) Bool.false_ne_true,
    fun hd => absurd hd e.code_ne_drops, h.latched⟩

/-- V_DROPS alone needs more than the verdict: it comes with DROPFAIL (R234). -/
theorem Consistent.verdict {v : VCode} (h : Consistent s) (hv : v ≠ .drops) : Safety.Inv (s.verdict v) :=
  ⟨h.wf_buf, v.isListed_code, fun hr => absurd (v.isRefusal_code.symm.trans hr) Bool.false_ne_true, fun _ => rfl,
    fun hd => absurd hd (VCode.code_ne_drops hv), h.latched⟩

theorem Consistent.succeed (h : Consistent s) : Safety.Inv s.succeed :=
  ⟨h.wf_buf, rfl, nofun, nofun, fun hd => absurd hd (by decide : (0 : Byte) ≠ 13), h.latched⟩

theorem Consistent.pass (h : Consistent s) : Safety.Inv s.pass :=
  ⟨h.wf_buf, rfl, nofun, nofun, fun hd => absurd hd (by decide : (0 : Byte) ≠ 13), h.latched⟩

theorem Consistent.judge {bad : Bool} {v : VCode} (h : Consistent s) (hv : v ≠ .drops) :
    Safety.Inv (s.judge bad v) := by
  rcases s.judge_cases bad v with ⟨_, hj⟩ | ⟨_, hj⟩ <;> rw [hj]
  · exact h.verdict hv
  · exact h.pass

theorem Consistent.judgeHeader {a c : Half} (h : Consistent s) : Safety.Inv (s.judgeHeader a c) := by
  unfold State.judgeHeader
  split
  · exact h.verdict (by decide)
  · exact h.judge (by decide)

/-- The drop failure sets DROPFAIL and ERRLATCH with its verdict (R234). -/
theorem Consistent.judgeTimestamp {d : Word} (h : Consistent s) : Safety.Inv (s.judgeTimestamp d) := by
  unfold State.judgeTimestamp
  split
  · exact ⟨h.wf_buf, rfl, nofun, fun _ => rfl, fun _ => rfl, fun _ => rfl⟩
  · exact Consistent.pass ⟨h.wf_buf, h.latched⟩

end

/-! ### Leading checks (R74, R282) -/

/-- The check, when it fails, does not end in V_DROPS, which is TS.STEP's (R234). -/
def NeverDrops (c : Option Stop) : Prop := c ≠ some (.verdict .drops)

theorem OnlyRefuses.neverDrops {c : Option Stop} (h : OnlyRefuses c) : NeverDrops c := h .drops

theorem neverDrops_rangeCheck (a n : Nat) : NeverDrops (rangeCheck a n) := (onlyRefuses_rangeCheck a n).neverDrops

theorem neverDrops_fieldCheck (bad : Bool) : NeverDrops (fieldCheck bad) := (onlyRefuses_fieldCheck bad).neverDrops

theorem neverDrops_verdictCheck (bad : Bool) {v : VCode} (hv : v ≠ .drops) : NeverDrops (verdictCheck bad v) := by
  unfold NeverDrops verdictCheck
  split <;> simp [hv]

theorem NeverDrops.or {c d : Option Stop} (hc : NeverDrops c) (hd : NeverDrops d) : NeverDrops (c.or d) := by
  cases c with
  | none => exact hd
  | some st => exact hc

theorem neverDrops_headerCheck (off : Nat) (s : State) : NeverDrops (headerCheck off s) :=
  (neverDrops_rangeCheck _ _).or <| (neverDrops_fieldCheck _).or <|
    (neverDrops_verdictCheck _ (by decide)).or (neverDrops_verdictCheck _ (by decide))

theorem neverDrops_commandCheck (off : Nat) (s : State) : NeverDrops (commandCheck off s) :=
  (neverDrops_headerCheck off s).or (neverDrops_rangeCheck _ _)

/-- A header that passes its checks lies inside BUF (R173). -/
theorem le_of_headerCheck {off : Nat} {s : State} (h : headerCheck off s = none) : off + 5 ≤ 1024 :=
  rangeCheck_eq_none.mp (Option.or_eq_none_iff.mp h).1

/-- So does the whole frame of a command that passes them (R175). -/
theorem le_of_commandCheck {off : Nat} {s : State} (h : commandCheck off s = none) : off + s.frameSize ≤ 1024 :=
  rangeCheck_eq_none.mp (Option.or_eq_none_iff.mp h).2

/-- An operation with leading checks meets the invariant when its effect does after checks that passed. -/
theorem attempt_inv {i : Instr} {s t u : State} {c : Option Stop} (h : attempt i s c (fun _ => u) = .next t)
    (hs : Consistent s) (hc : NeverDrops c) (hu : c = none → Safety.Inv u) : Safety.Inv t := by
  rcases attempt_cases h with ⟨hnone, rfl⟩ | ⟨e, _, rfl⟩ | ⟨v, hv, rfl⟩
  · exact hu hnone
  · exact hs.refuse e _
  · exact hs.verdict fun hd => hc (hd ▸ hv)

theorem attempt_range_inv {i : Instr} {s t u : State} {off n : Nat}
    (h : attempt i s (rangeCheck off n) (fun _ => u) = .next t) (hs : Consistent s)
    (hu : off + n ≤ 1024 → Safety.Inv u) : Safety.Inv t :=
  attempt_inv h hs (neverDrops_rangeCheck off n) fun hnone => hu (rangeCheck_eq_none.mp hnone)

/-! ### Updates that keep the two clauses: stores inside BUF (R70) and the writes to STATUS -/

section
variable {s : State} {a off n : Nat}

theorem Consistent.setByte (h : Consistent s) (ha : a < 1024) (b : Byte) : Consistent (s.setByte a b) :=
  ⟨Memory.wf_insert _ a b h.wf_buf ha, h.latched⟩

theorem Consistent.store (h : Consistent s) {bs : List Byte} (ha : a + bs.length ≤ 1024) :
    Consistent (s.store a bs) :=
  ⟨Memory.wf_insertAll _ a bs h.wf_buf ha, h.latched⟩

theorem Consistent.store_replicate (h : Consistent s) (ha : a + n ≤ 1024) (b : Byte) :
    Consistent (s.store a (List.replicate n b)) :=
  h.store (by rwa [List.length_replicate])

theorem Consistent.write16 (h : Consistent s) (ha : a + 2 ≤ 1024) (v : Half) : Consistent (s.write16 a v) :=
  h.store ha

theorem Consistent.write32 (h : Consistent s) (ha : a + 4 ≤ 1024) (v : Word) : Consistent (s.write32 a v) :=
  h.store ha

theorem Consistent.sealCk (h : Consistent s) (ha : off + n < 1024) : Consistent (s.sealCk off n) :=
  h.setByte ha _

theorem Consistent.sealCrc (h : Consistent s) (ha : off + n + 4 ≤ 1024) : Consistent (s.sealCrc off n) := by
  have hstored := h.write32 ha (crc32 (s.bytes off n))
  exact ⟨hstored.wf_buf, hstored.latched⟩

theorem Consistent.putHeader (h : Consistent s) (ha : off + 5 ≤ 1024) : Consistent (s.putHeader off) :=
  ((h.write16 (by omega) _).write16 (by omega) _).sealCk (n := 4) (by omega)

theorem State.zeroData_frameSize (s : State) (off : Nat) : (s.zeroData off).frameSize = s.frameSize := by
  simp only [State.frameSize_eq_commandSize, commandSize, State.zeroData_getX]

/-- A write's data and checksum byte lie in its frame (R174). -/
theorem data_le_of_frame (hw : s.isWrite = true) (ha : off + s.frameSize ≤ 1024) :
    off + 5 + s.payload + 1 ≤ 1024 := by
  rw [State.frameSize, if_pos hw] at ha
  change off + (5 + s.payload + 1) ≤ 1024 at ha
  omega

theorem header_le_of_frame (ha : off + s.frameSize ≤ 1024) : off + 5 ≤ 1024 := by
  rw [State.frameSize_eq_commandSize] at ha
  unfold commandSize at ha
  split at ha <;> omega

theorem Consistent.sealData (h : Consistent s) (ha : off + s.frameSize ≤ 1024) : Consistent (s.sealData off) := by
  unfold State.sealData
  split
  · next hw => exact h.sealCk (data_le_of_frame hw ha)
  · exact h

theorem Consistent.zeroData (h : Consistent s) (ha : off + s.frameSize ≤ 1024) : Consistent (s.zeroData off) := by
  unfold State.zeroData
  split
  · next hw => exact h.store_replicate (Nat.le_of_succ_le (data_le_of_frame hw ha)) 0
  · exact h

/-- The reset request clears DROPFAIL with ERRLATCH (R201). -/
theorem Consistent.applyReset (h : Consistent s) : Consistent s.applyReset := by
  unfold State.applyReset
  split
  · exact ⟨h.wf_buf, nofun⟩
  · exact h

/-- The flags of AI.VFY, as variables: with the comparisons in their place, the check would compute the CRCs to see that
the other fields are the same (R153). -/
theorem Consistent.crcFlags (h : Consistent s) (acc : Word) (k256 k264 : Bool) :
    Consistent { s with crcAcc := acc, status := { s.status with crc256Ok := k256, crc264Ok := k264 } } :=
  ⟨h.wf_buf, h.latched⟩

/-- TS.STEP before its verdict touches neither BUF nor the two flags (R231). -/
theorem Consistent.takeTimestamp (h : Consistent s) (rd : Reg) (now : Word) : Consistent (s.takeTimestamp rd now) := by
  rw [State.takeTimestamp_eq]
  exact ⟨h.wf_buf, h.latched⟩

end

/-! ### Every operation meets the invariant -/

section
variable {s t : State} {off : Nat} (hs : Consistent s)
include hs

theorem execAiGen_inv (h : execAiGen off s = .next t) : Safety.Inv t := by
  refine attempt_range_inv h hs fun ha => ?_
  change off + 264 ≤ 1024 at ha
  exact ((hs.sealCrc (n := 252) (by omega)).sealCrc (n := 260) (by omega)).succeed

theorem execUcVfy_inv (h : execUcVfy off s = .next t) : Safety.Inv t := by
  refine attempt_range_inv h hs fun _ => ?_
  dsimp only
  split
  · exact Consistent.judge ⟨hs.wf_buf, hs.latched⟩ (by decide)
  · exact Consistent.verdict ⟨hs.wf_buf, hs.latched⟩ (by decide)

theorem execMbxHdr_inv (h : execMbxHdr off s = .next t) : Safety.Inv t := by
  refine attempt_inv h hs (neverDrops_headerCheck off s) fun hnone => ?_
  have hbuilt := hs.putHeader (le_of_headerCheck hnone)
  exact Consistent.pass ⟨hbuilt.wf_buf, hbuilt.latched⟩

theorem execMbxCmd_inv (h : execMbxCmd off s = .next t) : Safety.Inv t := by
  refine attempt_inv h hs (neverDrops_commandCheck off s) fun hnone => ?_
  have ha := le_of_commandCheck hnone
  have hbuilt := (hs.putHeader (header_le_of_frame ha)).sealData ha
  exact Consistent.pass ⟨hbuilt.wf_buf, hbuilt.latched⟩

theorem execMbxCmdz_inv (h : execMbxCmdz off s = .next t) : Safety.Inv t := by
  refine attempt_inv h hs (neverDrops_commandCheck off s) fun hnone => ?_
  have ha := le_of_commandCheck hnone
  have hfilled := (hs.putHeader (header_le_of_frame ha)).zeroData ha
  have hbuilt := hfilled.sealData (by rw [State.zeroData_frameSize]; exact ha)
  exact Consistent.pass ⟨hbuilt.wf_buf, hbuilt.latched⟩

theorem execSpiPack_inv (h : execSpiPack off s = .next t) : Safety.Inv t := by
  refine attempt_inv h hs ((neverDrops_rangeCheck _ _).or (neverDrops_fieldCheck _)) fun hnone => ?_
  have ha : off + 3 ≤ 1024 := rangeCheck_eq_none.mp (Option.or_eq_none_iff.mp hnone).1
  have haddr := hs.write16 (a := off) (by omega) (low16 (s.getX 1))
  have hbuilt := haddr.setByte (a := off + 2) (by omega) (0#4 ++ (s.getX 0).extractLsb' 0 4)
  exact Consistent.succeed ⟨hbuilt.wf_buf, hbuilt.latched⟩

theorem execCycPack_inv (h : execCycPack off s = .next t) : Safety.Inv t := by
  refine attempt_inv h hs ((neverDrops_rangeCheck _ _).or (neverDrops_fieldCheck _)) fun hnone => ?_
  have ha : off + 8 ≤ 1024 := rangeCheck_eq_none.mp (Option.or_eq_none_iff.mp hnone).1
  have hbody : off + s.applyReset.cycleBody.length ≤ 1024 := by change off + 7 ≤ 1024; omega
  have hbuilt := (hs.applyReset.store hbody).sealCk (off := off) (n := 7) (by omega)
  exact Consistent.succeed ⟨hbuilt.wf_buf, hbuilt.latched⟩

theorem execTsStep_inv {rd ra : Reg} (h : execTsStep rd ra s = .next t) : Safety.Inv t := by
  change exec (.tsStep rd ra) s = .next t at h
  rw [exec_tsStep] at h
  cases h
  exact (hs.takeTimestamp rd _).judgeTimestamp

theorem execCycUnpack_inv (h : execCycUnpack off s = .next t) : Safety.Inv t := by
  refine attempt_range_inv h hs fun _ => ?_
  split
  · exact Consistent.verdict ⟨hs.wf_buf, hs.latched⟩ (by decide)
  · exact Consistent.pass ⟨hs.wf_buf, hs.latched⟩

/-- Whatever the operation, the state it leaves meets the invariant: its stores lie in the range it has checked, and its
ending brings LASTERR and STATUS into agreement. -/
theorem exec_inv {i : Instr} (h : exec i s = .next t) : Safety.Inv t := by
  unfold exec at h
  cases i with
  | nop | clrerr | ckInit | ckByte | crcInit | crcByte | diff32 | diff8 | durAcc | durClr | tsInit | diagReset =>
    cases h
    exact Consistent.succeed ⟨hs.wf_buf, hs.latched⟩
  | latchSet =>
    cases h
    exact Consistent.succeed ⟨hs.wf_buf, fun _ => rfl⟩
  | acc8 ra ch | snap8 ra ch =>
    cases h
    cases channel? ch with
    | none => exact hs.refuse .chan _
    | some c => exact Consistent.succeed ⟨hs.wf_buf, hs.latched⟩
  | tsStep => exact execTsStep_inv hs h
  | ckFold | ckSum | crcFold | crcSum | spiUnpack | eesUnpack | get8u | get8s | get16u | get16s | get32 =>
    exact attempt_range_inv h hs fun _ => Consistent.succeed ⟨hs.wf_buf, hs.latched⟩
  | ckVfy | crcVfy =>
    exact attempt_range_inv h hs fun _ => Consistent.judge ⟨hs.wf_buf, hs.latched⟩ (by decide)
  | aiVfy => exact attempt_range_inv h hs fun _ => (hs.crcFlags _ _ _).judge (by decide)
  | mbxRspv =>
    exact attempt_inv h hs ((neverDrops_verdictCheck _ (by decide)).or (neverDrops_rangeCheck _ _)) fun _ =>
      Consistent.judge ⟨hs.wf_buf, hs.latched⟩ (by decide)
  | mbxUnhdr =>
    exact attempt_inv h hs ((neverDrops_rangeCheck _ _).or (neverDrops_verdictCheck _ (by decide))) fun _ =>
      Consistent.judgeHeader ⟨hs.wf_buf, hs.latched⟩
  | ucVfy => exact execUcVfy_inv hs h
  | cycUnpack => exact execCycUnpack_inv hs h
  | ckSeal off len =>
    refine attempt_range_inv h hs fun ha => ?_
    have hbuilt := hs.sealCk (off := off) (n := len) (by omega)
    exact Consistent.succeed ⟨hbuilt.wf_buf, hbuilt.latched⟩
  | crcSeal off len => exact attempt_range_inv h hs fun ha => (hs.sealCrc (by omega)).succeed
  | ucGen => exact attempt_range_inv h hs fun ha => (hs.sealCrc (n := 12) ha).succeed
  | aiGen => exact execAiGen_inv hs h
  | mbxHdr => exact execMbxHdr_inv hs h
  | mbxCmd => exact execMbxCmd_inv hs h
  | mbxCmdz => exact execMbxCmdz_inv hs h
  | spiPack => exact execSpiPack_inv hs h
  | cycPack => exact execCycPack_inv hs h
  | put8 => exact attempt_range_inv h hs fun ha => (hs.setByte ha _).succeed
  | put16 => exact attempt_range_inv h hs fun ha => (hs.write16 ha _).succeed
  | put32 => exact attempt_range_inv h hs fun ha => (hs.write32 ha _).succeed
  | fillZ | fillF => exact attempt_range_inv h hs fun ha => (hs.store_replicate ha _).succeed

end

/-! ### Every step keeps the invariant -/

/-- A word refused in decoding changes only the fields of the refusal. -/
theorem runCommand_inv {w : Word} {s t : State} (hs : Consistent s) (h : runCommand w s = .next t) :
    Safety.Inv t := by
  rcases runCommand_next h with ⟨e, rfl⟩ | ⟨i, _, hexec⟩
  · exact hs.refuse e w
  · exact exec_inv hs hexec

theorem PlainAccess.inv {s t : State} (h : PlainAccess s t) (hs : Safety.Inv s) : Safety.Inv t := by
  obtain ⟨hwf, hstatus⟩ := hs
  rw [← h.status_eq] at hstatus
  exact ⟨h.wf_buf hwf, hstatus⟩

theorem performEvent_inv {e : HostEvent} {s t : State} (hs : Safety.Inv s) (h : performEvent e s = .next t) :
    Safety.Inv t := by
  rcases performEvent_next h with ⟨_, rfl⟩ | ⟨w, _, hrun⟩ | hplain
  · exact resetMeetsInvariant
  · exact runCommand_inv (.of_inv hs) hrun
  · exact hplain.inv hs

/-- The block is idle until the host's next event (R20). -/
theorem step_nil {s : State} (h : s.pending = []) : step s = .next s := by
  simp [step, hostStep, h]

/-- Settles O6: with no pending event nothing changes, and every event keeps the invariant. -/
theorem stepKeepsInvariant : Obligations.StepKeepsInvariant := by
  intro s t hs h
  cases hp : s.pending with
  | nil =>
    rw [step_nil hp] at h
    cases h
    exact hs
  | cons e rest =>
    rw [step_cons hp] at h
    exact performEvent_inv (s := { s with pending := rest }) hs h

end Sys2Proof.Machine
end
